-- ==== Sys2Proof/Word.lean ====
section
/-! DEFINITION. The word types of the part: a character of the shop line or a byte of the host port, and the
16-bit words that travel as two of them (R194). Counts, flows, areas and times are plain natural numbers. -/

namespace Sys2Proof

/-- A character's eight data bits, or a byte at the host port. -/
abbrev Byte := BitVec 8

/-- A 16-bit field; the generation is one (R25). -/
abbrev Word16 := BitVec 16

end Sys2Proof
end

