-- ==== Sys2Proof/Syntax.lean ====
section
/-! DEFINITION. The commands of the part: one constructor for each row of spec/opcode_table.json, in its order.
A taken frame carries the sender of its head, its GEN characters and its payload characters (R4); whether it is the
station's own is the line controller's to tell (R12). A host request carries the fields of its layout (R199). -/

namespace Sys2Proof

/-- One command: an event on the shop line, a frame taken off it, a timer expiry, a host request or a machine input. -/
inductive Instr where
  /-- FULL_RESET: the seven strap pins as they stand (R49). -/
  | fullReset (station : BitVec 4) (rolePin : Bool) (rate : BitVec 2)
  /-- RECEIVE_CHARACTER: the data bits, the mark bit, and whether the stop bit reads recessive (R1). -/
  | receiveCharacter (data : Byte) (mark : Bool) (stop : Bool)
  | lineIdle
  | frameTimeLimit
  | breakEvent
  | breakEnd
  | haltBreakEnd
  | transmitStart
  | arbitrationLost
  | collision
  | sendCompleted
  | yieldClear
  | lineRestExpiry
  | budget (sender : BitVec 4) (gen : Word16) (payload : List Byte)
  | flowAsk (sender : BitVec 4) (gen : Word16) (payload : List Byte)
  | flowDrop (sender : BitVec 4) (gen : Word16) (payload : List Byte)
  | join (sender : BitVec 4) (gen : Word16) (payload : List Byte)
  | gone (sender : BitVec 4) (gen : Word16) (payload : List Byte)
  | rebase (sender : BitVec 4) (gen : Word16) (payload : List Byte)
  | slabAdd (sender : BitVec 4) (gen : Word16) (payload : List Byte)
  | claim (sender : BitVec 4) (gen : Word16) (payload : List Byte)
  | release (sender : BitVec 4) (gen : Word16) (payload : List Byte)
  | reclaim (sender : BitVec 4) (gen : Word16) (payload : List Byte)
  | consume (sender : BitVec 4) (gen : Word16) (payload : List Byte)
  | scrap (sender : BitVec 4) (gen : Word16) (payload : List Byte)
  | freeOrphanFrame (sender : BitVec 4) (gen : Word16) (payload : List Byte)
  | jobOpen (sender : BitVec 4) (gen : Word16) (payload : List Byte)
  | jobClose (sender : BitVec 4) (gen : Word16) (payload : List Byte)
  | costReport (sender : BitVec 4) (gen : Word16) (payload : List Byte)
  | hello (sender : BitVec 4) (gen : Word16) (payload : List Byte)
  | syncAsk (sender : BitVec 4) (gen : Word16) (payload : List Byte)
  /-- SNAP: the one directed kind carries its TARGET (R5). -/
  | snap (sender : BitVec 4) (target : BitVec 4) (gen : Word16) (payload : List Byte)
  | askTimerExpiry
  | listenTimerExpiry
  | helloTimerExpiry
  /-- MEMBER_SILENT: the station whose 3.0 s have passed (R59). -/
  | memberSilent (station : BitVec 4)
  | rejoinTakesEffect
  | selFall
  | selRise
  | noticeRemoved
  /-- BAD_REQUEST: the request code and the length byte that make it one (R184). -/
  | badRequest (code : Byte) (length : Byte)
  | status
  | fetchNotice
  | rejoin
  | registerSlab (material thickness : Byte) (length width : Word16) (rack : Byte) (rate : Word16)
  | scrapSlab (id : Word16)
  | freeOrphan (id : Word16)
  | readSlab (id : Word16)
  | setCursor (slot : Byte)
  | walkSlabs
  | submitPiece (piece : Byte) (job : Word16) (material thickness : Byte) (length width : Word16) (rotate : Byte)
  | cancelPiece (piece : Byte)
  | readPlan
  | sealPlan
  | go
  | resume
  | abandonPlan
  | openJob (job : Word16)
  | closeJob (job : Word16)
  | readJob (job : Word16)
  | readCostLine (slot : Byte)
  | clearCostLine (slot : Byte)
  | readLedger (start : Byte)
  | readSamples
  | sampleTrigger
  /-- ANALOG_READING: one 10-bit reading of the input under conversion (R103). -/
  | analogReading (value : BitVec 10)
  | jamTimerExpiry
  | dryTimerExpiry
  | flowPulse
  | flowWindowEnd
  | spacingTimerExpiry
  | sealingTimerExpiry
  | encCount
  | feedPulse
  /-- STOP_INPUT: the level STOP changes to, true when asserted (R144, R161). -/
  | stopInput (asserted : Bool)
  | spinTimerExpiry
  | holdTimerExpiry
  | idleSpinExpiry
  | dropTimerExpiry
  | costClock
  deriving DecidableEq, Repr

end Sys2Proof
end

