-- ==== Sys2Proof/WellFormed.lean ====
section
/-! DEFINITION. Which commands can arise: the sender of a head is 1 to 15 and a payload has at most 40 characters
(R4), a SNAP's TARGET is 1 to 15 (R5), a silent member is a station 1 to 15 (R59), and BAD_REQUEST names a request
that is one (R184, R199). Every other operand is as wide as its field. -/

namespace Sys2Proof

/-- The request length of each request code (R199); none for a code that is not listed. -/
def requestLength (code : Nat) : Option Nat :=
  match code with
  | 0x01 | 0x02 | 0x03 | 0x09 | 0x0C | 0x0D | 0x0E | 0x0F | 0x10 | 0x17 => some 0
  | 0x04 => some 9
  | 0x05 | 0x06 | 0x07 | 0x11 | 0x12 | 0x13 => some 2
  | 0x08 | 0x0B | 0x14 | 0x15 | 0x16 => some 1
  | 0x0A => some 10
  | _ => none

/-- A frame's sender and payload keep to R4. -/
def frameWf (sender : BitVec 4) (payload : List Byte) : Bool :=
  sender != 0 && payload.length ≤ 40

/-- The command can arise. -/
def Instr.wf : Instr → Bool
  | .budget s _ p | .flowAsk s _ p | .flowDrop s _ p | .join s _ p | .gone s _ p | .rebase s _ p
  | .slabAdd s _ p | .claim s _ p | .release s _ p | .reclaim s _ p | .consume s _ p | .scrap s _ p
  | .freeOrphanFrame s _ p | .jobOpen s _ p | .jobClose s _ p | .costReport s _ p | .hello s _ p
  | .syncAsk s _ p => frameWf s p
  | .snap s t _ p => frameWf s p && t != 0
  | .memberSilent s => s != 0
  | .badRequest code length => requestLength code.toNat != some length.toNat
  | .fullReset .. | .receiveCharacter .. | .lineIdle | .frameTimeLimit | .breakEvent | .breakEnd
  | .haltBreakEnd | .transmitStart | .arbitrationLost | .collision | .sendCompleted | .yieldClear
  | .lineRestExpiry | .askTimerExpiry | .listenTimerExpiry | .helloTimerExpiry | .rejoinTakesEffect
  | .selFall | .selRise | .noticeRemoved | .status | .fetchNotice | .rejoin | .registerSlab ..
  | .scrapSlab _ | .freeOrphan _ | .readSlab _ | .setCursor _ | .walkSlabs | .submitPiece ..
  | .cancelPiece _ | .readPlan | .sealPlan | .go | .resume | .abandonPlan | .openJob _ | .closeJob _
  | .readJob _ | .readCostLine _ | .clearCostLine _ | .readLedger _ | .readSamples | .sampleTrigger
  | .analogReading _ | .jamTimerExpiry | .dryTimerExpiry | .flowPulse | .flowWindowEnd
  | .spacingTimerExpiry | .sealingTimerExpiry | .encCount | .feedPulse | .stopInput _
  | .spinTimerExpiry | .holdTimerExpiry | .idleSpinExpiry | .dropTimerExpiry | .costClock => true

end Sys2Proof
end

