-- ==== Sys2Proof/Decode.lean ====
section
/-! DEFINITION. The table's words, and the host requests as bytes (R183, R184, R199). No row of spec/opcode_table.json
gives bits (98_reader.md: rows with fixed bits 0), so no word spells a command. The layouts of frames, snapshot records
and host replies are in Machine/Operands.lean and Machine/HostPort.lean. -/

namespace Sys2Proof

/-- The command a word spells by the table's bits: none, since no row gives any. -/
def decodeTableWord (nbits w : Nat) : Option Instr :=
  match nbits, w with
  | _, _ => none

/-! ## Host requests as bytes -/

/-- A two-byte field, most significant byte first (R194). -/
def word16 (a b : Byte) : Word16 := a ++ b

/-- The two bytes of a field, most significant byte first (R194). -/
def bytesOf16 (w : Word16) : List Byte := [w.extractLsb' 8 8, w.extractLsb' 0 8]

/-- The request that a code and its payload make (R199); none for a code that is not listed, or a payload that has not
its code's length. -/
def requestPayload (code : Nat) (payload : List Byte) : Option Instr :=
  match code, payload with
  | 0x01, [] => some .status
  | 0x02, [] => some .fetchNotice
  | 0x03, [] => some .rejoin
  | 0x04, [m, t, l1, l0, w1, w0, r, q1, q0] =>
    some (.registerSlab m t (word16 l1 l0) (word16 w1 w0) r (word16 q1 q0))
  | 0x05, [a, b] => some (.scrapSlab (word16 a b))
  | 0x06, [a, b] => some (.freeOrphan (word16 a b))
  | 0x07, [a, b] => some (.readSlab (word16 a b))
  | 0x08, [s] => some (.setCursor s)
  | 0x09, [] => some .walkSlabs
  | 0x0A, [p, j1, j0, m, t, l1, l0, w1, w0, r] =>
    some (.submitPiece p (word16 j1 j0) m t (word16 l1 l0) (word16 w1 w0) r)
  | 0x0B, [p] => some (.cancelPiece p)
  | 0x0C, [] => some .readPlan
  | 0x0D, [] => some .sealPlan
  | 0x0E, [] => some .go
  | 0x0F, [] => some .resume
  | 0x10, [] => some .abandonPlan
  | 0x11, [a, b] => some (.openJob (word16 a b))
  | 0x12, [a, b] => some (.closeJob (word16 a b))
  | 0x13, [a, b] => some (.readJob (word16 a b))
  | 0x14, [s] => some (.readCostLine s)
  | 0x15, [s] => some (.clearCostLine s)
  | 0x16, [s] => some (.readLedger s)
  | 0x17, [] => some .readSamples
  | _, _ => none

/-- The command that the bytes of a request make at its completing edge (R183, R184): the code, the length and as many
payload bytes as the length gives. A length above 40 ends the request at the length byte; none while it is not complete. -/
def requestOf : List Byte → Option Instr
  | code :: length :: payload =>
    if 40 < length.toNat then some (.badRequest code length)
    else if payload.length = length.toNat then
      some ((requestPayload code.toNat payload).getD (.badRequest code length))
    else none
  | _ => none

/-- The code and the payload of a host request (R199); none for a command that is no request, and for BAD_REQUEST, whose
payload no rule reads. -/
def requestFields : Instr → Option (Byte × List Byte)
  | .status => some (0x01, [])
  | .fetchNotice => some (0x02, [])
  | .rejoin => some (0x03, [])
  | .registerSlab m t l w rack rate => some (0x04, [m, t] ++ bytesOf16 l ++ bytesOf16 w ++ [rack] ++ bytesOf16 rate)
  | .scrapSlab id => some (0x05, bytesOf16 id)
  | .freeOrphan id => some (0x06, bytesOf16 id)
  | .readSlab id => some (0x07, bytesOf16 id)
  | .setCursor slot => some (0x08, [slot])
  | .walkSlabs => some (0x09, [])
  | .submitPiece piece job m t l w rotate =>
    some (0x0A, [piece] ++ bytesOf16 job ++ [m, t] ++ bytesOf16 l ++ bytesOf16 w ++ [rotate])
  | .cancelPiece piece => some (0x0B, [piece])
  | .readPlan => some (0x0C, [])
  | .sealPlan => some (0x0D, [])
  | .go => some (0x0E, [])
  | .resume => some (0x0F, [])
  | .abandonPlan => some (0x10, [])
  | .openJob job => some (0x11, bytesOf16 job)
  | .closeJob job => some (0x12, bytesOf16 job)
  | .readJob job => some (0x13, bytesOf16 job)
  | .readCostLine slot => some (0x14, [slot])
  | .clearCostLine slot => some (0x15, [slot])
  | .readLedger start => some (0x16, [start])
  | .readSamples => some (0x17, [])
  | _ => none

/-- The bytes of a host request (R183, R199). -/
def requestBytes (c : Instr) : Option (List Byte) :=
  (requestFields c).map (fun p => [p.1, BitVec.ofNat 8 p.2.length] ++ p.2)

end Sys2Proof
end

