-- ==== Sys2Proof/Config.lean ====
section
/-! DEFINITION. What the board fixes for a part and the spec does not, the levels of the strap pins; the model's tick; and
the one value that the spec leaves open. -/

namespace Sys2Proof.Config

/-- STN3 to STN0 with every strap open: an open strap reads high (R49). DESIGN CHOICE, log 5. Unsafe. -/
def openStation : Nat := 15

/-- RATE1 and RATE0 with both straps open: 62.5 kbit/s (R49, 0.7.2). DESIGN CHOICE, log 5. Unsafe. -/
def openRate : Nat := 3

/-- What one step on an empty queue adds to the model's clock, in milliseconds. DESIGN CHOICE, log 4. Unsafe. -/
def tick : Nat := 1

/-- The free values: what the two correction bytes of READ_SAMPLES show when the correction is above 65535, which R108
and R111 allow and no rule states (R190, R199). Nothing constrains them. DESIGN CHOICE, log 36. Safe. -/
opaque freeValue : Nat → BitVec 16

end Sys2Proof.Config
end

