-- ==== Sys2Proof/Machine/State.lean ====
section
/-! DEFINITION. The state of the SC412: the nine blocks of 0.2 as plain data, the queue of commands, and the machine
right after a full reset. `Shop` is the replica and what moves with it, which the table unit alone writes (0.2.2);
`Blocks` is every other block's state. Timers stand as deadlines on the model's clock `now`, in milliseconds (log 4). -/

namespace Sys2Proof.Machine

/-! ## Names and records of the shop state -/

/-- A station's role (R49). -/
inductive Role where
  | cutter | plant
  deriving DecidableEq, Repr

/-- The kinds of frame (R5). -/
inductive Kind where
  | budget | flowAsk | flowDrop | join | gone | rebase | slabAdd | claim | release | reclaim | consume | scrap
  | freeOrphan | jobOpen | jobClose | costReport | hello | syncAsk | snap
  deriving DecidableEq, Repr

/-- A slab id, origin station and serial (R69). -/
structure SlabId where
  origin : Nat
  serial : Nat
  deriving DecidableEq, Repr

/-- Kinds of slab record (R68). -/
inductive SlabKind where
  | sheet | remnant
  deriving DecidableEq, Repr

/-- States of a slab record (R71). -/
inductive SlabState where
  | free | claimed | orphaned
  deriving DecidableEq, Repr

/-- A slab record (R68). -/
structure Slab where
  id : SlabId
  kind : SlabKind
  parent : Option SlabId
  material : Nat
  thickness : Nat
  length : Nat
  width : Nat
  rack : Nat
  rate : Nat
  state : SlabState
  holder : Option Nat
  deriving DecidableEq, Repr

/-- A member record (R24). -/
structure Member where
  station : Nat
  role : Role
  deriving DecidableEq, Repr

/-- A water entry (R88). -/
structure Entry where
  station : Nat
  asked : Nat
  granted : Nat
  deriving DecidableEq, Repr

/-- The flow ledger (R88); entries in grant order, oldest first. -/
structure Ledger where
  budget : Nat
  plant : Option Nat
  entries : List Entry
  deriving DecidableEq, Repr

/-- The seven sums of a job or of a cost line (R165). -/
structure Tally where
  stone : Nat
  waste : Nat
  cost : Nat
  water : Nat
  blade : Nat
  face : Nat
  pieces : Nat
  deriving DecidableEq, Repr

/-- States of a job (R165). -/
inductive JobState where
  | opened | closing | closed
  deriving DecidableEq, Repr

/-- A job record (R165), with its closing generation (R24). -/
structure Job where
  number : Nat
  state : JobState
  opener : Nat
  closer : Option Nat
  pending : List Nat
  short : Bool
  closing : Option Word16
  tally : Tally
  deriving DecidableEq, Repr

/-- A table of slots: the occupied ones, slots strictly rising. -/
abbrev Slots (α : Type) := List (Nat × α)

/-- The replica's four collections (R24), and the records a build holds with no slot (R42). -/
structure Replica where
  members : List Member
  ledger : Ledger
  slabs : Slots Slab
  jobs : Slots Job
  looseSlabs : List Slab
  looseJobs : List Job
  deriving DecidableEq, Repr

/-- The four replica states (R24). -/
inductive ReplicaState where
  | empty | building | current | stale
  deriving DecidableEq, Repr

/-- The build bookkeeping (R39 to R45). `reached` is the furthest section begun, numbered 1 to 5 as R33 orders them;
the partial replica itself is the replica while the build runs (R24). -/
structure Build where
  server : Nat
  expGen : Word16
  expSeq : Nat
  reached : Nat
  slabMark : Option Nat
  jobMark : Option Nat
  aside : Replica
  asideState : ReplicaState
  asideGen : Word16
  deriving DecidableEq, Repr

/-- The table unit's replica, its state and generation, and the build (R24, R25). -/
structure Shop where
  state : ReplicaState
  gen : Word16
  rep : Replica
  build : Option Build
  deriving DecidableEq, Repr

/-! ## Line controller -/

/-- The receiver (R7); in FRAME, the characters taken in, HEAD first. -/
inductive Rx where
  | waitIdle | ready | frame (chars : List Byte) | skip
  deriving DecidableEq, Repr

/-- Why a frame is discarded (R10). -/
inductive Discard where
  | framing | check | malformed | timeout | broken
  deriving DecidableEq, Repr

/-- The blocks that queue frames (R13, R14). -/
inductive Producer where
  | host | planner | saw | cost | presence | table | plant
  deriving DecidableEq, Repr

/-- A frame as its producer gives it (R13). `line` is the slot of the cost line that a COST_REPORT reports; no character
carries it, and a zero report has none (R178, R179). -/
structure Frame where
  kind : Kind
  target : Nat
  payload : List Byte
  line : Option Nat := none
  deriving DecidableEq, Repr

/-- An entry of the outbound queue (R13). `again` marks a refused withdrawal that its producer is to make again when
the attempt fails (R46, R114, R115). -/
structure OutEntry where
  frame : Frame
  producer : Producer
  order : Nat
  inEmission : Bool
  again : Bool
  deriving DecidableEq, Repr

/-- A frame waiting for a slot of the queue, and its producer (R14). -/
structure Waiter where
  producer : Producer
  frame : Frame
  deriving DecidableEq, Repr

/-- How an attempt ends without completing (R17, R18). -/
inductive Attempt where
  | lost | collision | broke
  deriving DecidableEq, Repr

/-- The line controller (01, R23). `badStop`: the last character read had a dominant stop bit inside a frame, and its run
may still grow into a break (R3; log 21). -/
structure Line where
  rx : Rx
  idle : Bool
  inBreak : Bool
  halting : Bool
  queue : List OutEntry
  waitList : List Waiter
  backlog : List Waiter
  nextOrder : Nat
  tx : List Byte
  txDone : Option Kind
  failures : Nat
  yielding : Bool
  restT : Option Nat
  lastDiscard : Option Discard
  badStop : Bool
  deriving DecidableEq, Repr

/-! ## Table unit: asking and serving -/

/-- A stream position (R33). -/
inductive Pos where
  | member (i : Nat) | head | entry (j : Nat) | slab (s : Nat) | job (t : Nat) | fin
  deriving DecidableEq, Repr

/-- The outgoing stream (R32 to R38): `carried` is the record the SNAP offered carries, `sent` its payload,
`lastDone` the section of the last SNAP completed (0 before the first). -/
structure Stream where
  asker : Nat
  pos : Pos
  seq : Nat
  lastDone : Nat
  carried : Pos
  sent : List Byte
  deriving DecidableEq, Repr

/-- The ask bookkeeping, the heard record and the outgoing stream of the table unit (R30 to R38, R46). -/
structure Asking where
  count : Nat
  failed : Bool
  answered : Bool
  snapHeard : Option Nat
  askHeard : Slots Nat
  stream : Option Stream
  deriving DecidableEq, Repr

/-! ## Presence unit -/

/-- Phases of OUTSIDE (R51). -/
inductive Phase where
  | listen | asking | building
  deriving DecidableEq, Repr

/-- Membership states (R51). -/
inductive Membership where
  | inert | outside (phase : Phase) | joining | member | mute
  deriving DecidableEq, Repr

/-- The presence unit (03, R67). -/
structure Presence where
  station : Nat
  role : Role
  rate : Nat
  mem : Membership
  listenT : Option Nat
  askT : Option Nat
  helloT : Option Nat
  heard : Slots Nat
  serial : Nat
  deriving DecidableEq, Repr

/-! ## Planner -/

/-- States of a queued piece (R119). -/
inductive PieceState where
  | queued | waitStock | waitLine
  deriving DecidableEq, Repr

/-- A piece (R119). -/
structure Piece where
  id : Nat
  job : Nat
  material : Nat
  thickness : Nat
  length : Nat
  width : Nat
  rotate : Bool
  state : PieceState
  sub : Nat
  deriving DecidableEq, Repr

/-- A placement of the plan (R123). -/
structure Placement where
  piece : Piece
  x : Nat
  y : Nat
  length : Nat
  width : Nat
  rotated : Bool
  done : Bool
  deriving DecidableEq, Repr

/-- An open offcut (R123). -/
structure Offcut where
  x : Nat
  y : Nat
  length : Nat
  width : Nat
  deriving DecidableEq, Repr

/-- Cut kinds (R123). -/
inductive CutKind where
  | cross | rip
  deriving DecidableEq, Repr

/-- A cut: kind, length, index of the placement that added it, job, DONE or PENDING (R123). -/
structure Cut where
  kind : CutKind
  length : Nat
  placement : Nat
  job : Nat
  done : Bool
  deriving DecidableEq, Repr

/-- Fault reasons of a plan (R123). -/
inductive FaultReason where
  | water | jam | dry | stall | stop | slabLost
  deriving DecidableEq, Repr

/-- Plan states but NONE, which is the absence of a plan (R124). -/
inductive PlanState where
  | claiming | planning | sealed | loadWait | running | consuming | faulted | reclaiming
  deriving DecidableEq, Repr

/-- The active plan (R123). `piece` and `job` are the piece being claimed for, while it stands in the queue, and the
job a line was reserved for (R126); `keptRelease` and `keptConsume` wait for the RECLAIM (R136 to R139);
`abandoned` is the flag its CONSUME carries (R137). -/
structure Plan where
  slab : SlabId
  length : Nat
  width : Nat
  material : Nat
  thickness : Nat
  state : PlanState
  back : PlanState
  fault : Option FaultReason
  releasing : Bool
  placements : List Placement
  offcuts : List Offcut
  cuts : List Cut
  started : Bool
  piece : Option Nat
  job : Nat
  keptRelease : Bool
  keptConsume : Bool
  abandoned : Bool
  deriving DecidableEq, Repr

/-- The planner (07, R140). -/
structure Planner where
  pieces : List Piece
  nextSub : Nat
  plan : Option Plan
  sealT : Option Nat
  deriving DecidableEq, Repr

/-! ## Saw sequencer -/

/-- Sequencer states (8.2). -/
inductive SawState where
  | idle | loadWait | waterWait | spinup | cutting | held | indexWait | finishing | faulted
  deriving DecidableEq, Repr

/-- The sequencer's copy of the plan (R145). -/
structure SawPlan where
  thickness : Nat
  need : Nat
  baseFeed : Nat
  cuts : List Cut
  deriving DecidableEq, Repr

/-- The saw sequencer (08, R164). Cuts count from 1, and `cur` 0 is none. -/
structure Saw where
  st : SawState
  fault : Option FaultReason
  plan : Option SawPlan
  cur : Nat
  entered : Bool
  resumeCut : Nat
  resumeEntered : Bool
  started : Bool
  enc : Nat
  cmd : Nat
  feedOn : Bool
  feedRate : Nat
  pulsePeriod : Nat
  blade : Bool
  valve : Nat
  atSpeed : Bool
  grant : Nat
  waterWanted : Bool
  spinT : Option Nat
  holdT : Option Nat
  idleSpinT : Option Nat
  dropT : Option Nat
  deriving DecidableEq, Repr

/-! ## Measurement and plant units -/

/-- A scan in progress (R103): the input under conversion is MA until `maResult` is there, then MB. -/
structure Scan where
  maResult : Option Nat
  readings : Nat
  last : Option Nat
  deriving DecidableEq, Repr

/-- The measurement unit (06, R117). -/
structure Meas where
  sampleT : Nat
  scan : Option Scan
  ma : Nat
  mb : Nat
  maHist : List Nat
  mbHist : List Nat
  missed : Nat
  derate : Bool
  jamT : Option Nat
  jam : Bool
  dryT : Option Nat
  dry : Bool
  valveOpen : Bool
  windowT : Option Nat
  pulses : Nat
  window : Nat
  deriving DecidableEq, Repr

/-- Level bands (R109). -/
inductive Band where
  | halt | low | mid | high | top
  deriving DecidableEq, Repr

/-- The plant unit (06, R118; standby flag R97). -/
structure PlantUnit where
  band : Option Band
  turbid : Bool
  overCount : Nat
  underCount : Nat
  correction : Option Nat
  published : Option Nat
  lastSent : Nat
  spacingT : Option Nat
  standby : Bool
  deriving DecidableEq, Repr

/-! ## Cost unit -/

/-- Report states of a cost line (R172). -/
inductive ReportState where
  | accruing | due | sent | refused
  deriving DecidableEq, Repr

/-- A cost line (R172). -/
structure CostLine where
  job : Nat
  tally : Tally
  openCount : Nat
  state : ReportState
  deriving DecidableEq, Repr

/-- The figures of a taken own CONSUME (R85). -/
structure Figures where
  parent : SlabId
  area : Nat
  rate : Nat
  abandoned : Bool
  pieceTotal : Nat
  recorded : Nat
  unrecorded : Nat
  deriving DecidableEq, Repr

/-- The settlement of one cut piece (R176). -/
structure Settlement where
  job : Nat
  area : Nat
  index : Nat
  deriving DecidableEq, Repr

/-- An own COST_REPORT that is held: of a line, or a zero report of a job (R178, R179). -/
inductive Report where
  | line (slot job : Nat) | zero (job : Nat)
  deriving DecidableEq, Repr

/-- The cost unit (09, R182). `first` is the plan's first job and the slot its hold is set on (R173). -/
structure CostUnit where
  lines : Slots CostLine
  clockT : Option Nat
  first : Option (Nat × Nat)
  figures : Option Figures
  settled : Option (List Settlement)
  reports : List Report
  deriving DecidableEq, Repr

/-! ## Host port -/

/-- Exchange states (R183). -/
inductive Exchange where
  | deselected | request | reply | drain
  deriving DecidableEq, Repr

/-- Statuses (R186). -/
inductive Status where
  | ok | queued | badRequest | badField | wrongRole | notLive | full | notFound | wrongState | inert
  deriving DecidableEq, Repr

/-- A reply (R184); `notice` marks a FETCH_NOTICE reply that carries a notice (R189). -/
structure Reply where
  status : Status
  payload : List Byte
  notice : Bool
  deriving DecidableEq, Repr

/-- Refusal reasons in notices (R196). -/
inductive RefusalReason where
  | idPresent | tableFull | discarded | active | notOpen
  deriving DecidableEq, Repr

/-- Notices with their details (R192). -/
inductive Notice where
  | joined (station : Nat) (role : Role)
  | goneSelf (gen : Word16)
  | stale (own frame : Word16)
  | synced (gen : Word16)
  | syncFailed (gen : Word16) (state : ReplicaState)
  | duplicateStation (kind : Kind)
  | lineFault (last : Attempt)
  | plantConflict (plant : Nat) (gen : Word16)
  | slabAdded (id : SlabId) (slot : Nat)
  | addRefused (id : SlabId) (reason : RefusalReason)
  | piecePlaced (piece : Nat) (slab : SlabId) (index : Nat) (rotated : Bool)
  | pieceWaiting (piece job : Nat)
  | planSealed (slab : SlabId) (placements cuts : Nat)
  | cutDone (index : Nat) (kind : CutKind) (job : Nat)
  | planDone (slab : SlabId) (pieces : Nat) (abandoned : Bool)
  | planFault (reason : FaultReason) (cut enc : Nat)
  | grantChanged (new previous : Nat) (gen : Word16)
  | jobRefused (job : Nat) (kind : Kind) (reason : RefusalReason)
  | jobPiecesCancelled (job pieces : Nat)
  | tallyDone (job : Nat) (short : Bool) (closing : Word16)
  | reportRefused (slot job : Nat) (gen : Word16)
  deriving DecidableEq, Repr

/-- The host port (10, R193), with the plan part index (R200). -/
structure HostPort where
  exchange : Exchange
  reply : Option Reply
  notices : List Notice
  lost : Nat
  attn : Bool
  cursor : Nat
  rejoinPending : Bool
  planPart : Nat
  deriving DecidableEq, Repr

/-! ## The station -/

/-- Every block's state but the replica, the clock and the input pins that keep a level. `draws` is the model's own: how
many free values have been taken (log 36). -/
structure Blocks where
  now : Nat
  draws : Nat
  selLow : Bool
  stop : Bool
  line : Line
  asking : Asking
  pres : Presence
  planner : Planner
  saw : Saw
  meas : Meas
  plant : PlantUnit
  cost : CostUnit
  host : HostPort
  deriving DecidableEq, Repr

/-- One SC412. -/
structure Station where
  shop : Shop
  blk : Blocks
  deriving DecidableEq, Repr

/-- The machine: the part, and the commands that wait for it, first in, first out. -/
structure State where
  dev : Station
  pending : List Instr
  deriving DecidableEq, Repr

/-- Why the machine stops: never. The spec stops the part on no command, so no meaning raises a fault. -/
inductive Fault where
  deriving DecidableEq, Repr

/-- Why a command has no meaning. -/
inductive Refusal where
  /-- Raised by exec's arm of a command that is not modelled yet, by its mnemonic. Safe. -/
  | notModelled (mnemonic : String)
  deriving DecidableEq, Repr

/-- An EMPTY replica's content (R24). -/
def Replica.blank : Replica :=
  { members := [], ledger := { budget := 0, plant := none, entries := [] }, slabs := [], jobs := [],
    looseSlabs := [], looseJobs := [] }

/-- The machine right after a full reset with every strap open and SEL and STOP high (R49; log 5): station 15 in the
PLANT role, listening, every block at its full-reset values (R23, R48, R67, R102, R117, R118, R140, R164, R182, R193). -/
def State.reset : State :=
  { dev :=
      { shop := { state := .empty, gen := 0, rep := Replica.blank, build := none }
        blk :=
          { now := 0, draws := 0, selLow := false, stop := false
            line :=
              { rx := .waitIdle, idle := false, inBreak := false, halting := false, queue := [], waitList := [],
                backlog := [], nextOrder := 0, tx := [], txDone := none, failures := 0, yielding := false,
                restT := none, lastDiscard := none, badStop := false }
            asking :=
              { count := 0, failed := false, answered := false, snapHeard := none, askHeard := [], stream := none }
            pres :=
              { station := Config.openStation, role := .plant, rate := Config.openRate, mem := .outside .listen,
                listenT := some 1500, askT := none, helloT := none, heard := [], serial := 1 }
            planner := { pieces := [], nextSub := 1, plan := none, sealT := none }
            saw :=
              { st := .idle, fault := none, plan := none, cur := 0, entered := false, resumeCut := 0,
                resumeEntered := false, started := false, enc := 0, cmd := 0, feedOn := false, feedRate := 0,
                pulsePeriod := 0, blade := false, valve := 0, atSpeed := false, grant := 0, waterWanted := false,
                spinT := none, holdT := none, idleSpinT := none, dropT := none }
            meas :=
              { sampleT := 100, scan := none, ma := 0, mb := 0, maHist := [], mbHist := [], missed := 0,
                derate := false, jamT := none, jam := false, dryT := none, dry := false, valveOpen := false,
                windowT := some 1000, pulses := 0, window := 0 }
            plant :=
              { band := none, turbid := false, overCount := 0, underCount := 0, correction := none, published := none,
                lastSent := 0, spacingT := none, standby := false }
            cost :=
              { lines := [], clockT := some 1000, first := none, figures := none, settled := none, reports := [] }
            host :=
              { exchange := .deselected, reply := none, notices := [], lost := 0, attn := false, cursor := 0,
                rejoinPending := false, planPart := 0 } } }
    pending := [] }

end Sys2Proof.Machine
end

