-- ==== Sys2Proof/Machine/Ops.lean ====
section
/-! DEFINITION. The named operations that every block uses: tables of slots (R70), timers (log 4), the outbound queue
with its wait list and backlog (R13 to R15), and posting a notice (R191). -/

namespace Sys2Proof.Machine

/-! ## Tables of slots -/

/-- The record at a slot. -/
def Slots.get {α : Type} (k : Nat) : Slots α → Option α
  | [] => none
  | (j, a) :: rest => if j = k then some a else Slots.get k rest

/-- Put a record at a slot, keeping the slots rising. -/
def Slots.set {α : Type} (k : Nat) (a : α) : Slots α → Slots α
  | [] => [(k, a)]
  | (j, b) :: rest =>
    if k < j then (k, a) :: (j, b) :: rest
    else if k = j then (k, a) :: rest
    else (j, b) :: Slots.set k a rest

/-- Empty a slot; the other records keep theirs (R70). -/
def Slots.erase {α : Type} (k : Nat) (m : Slots α) : Slots α := m.filter (fun p => p.1 != k)

/-- The lowest empty slot at or above `n`, of a table whose first slots are below `n` or rise from it. -/
def Slots.freeFrom {α : Type} (n : Nat) : Slots α → Nat
  | [] => n
  | (j, _) :: rest => if j = n then Slots.freeFrom (n + 1) rest else n

/-- The lowest-numbered empty slot below `limit` (R70). -/
def Slots.lowestFree {α : Type} (limit : Nat) (m : Slots α) : Option Nat :=
  if Slots.freeFrom 0 m < limit then some (Slots.freeFrom 0 m) else none

/-- The lowest occupied slot at or above `k`, with its record. -/
def Slots.atOrAbove {α : Type} (k : Nat) (m : Slots α) : Option (Nat × α) := m.find? (fun p => k ≤ p.1)

/-- Change the records that a test picks, leaving every slot where it is. -/
def Slots.update {α : Type} (test : α → Bool) (f : α → α) (m : Slots α) : Slots α :=
  m.map (fun p => (p.1, if test p.2 then f p.2 else p.2))

/-- The slots rise strictly. -/
def Slots.wf {α : Type} : Slots α → Bool
  | [] => true
  | [_] => true
  | (i, _) :: (j, b) :: rest => i < j && Slots.wf ((j, b) :: rest)

/-! ## Timers -/

/-- The deadline of a timer started now for `ms` milliseconds. -/
def Blocks.after (ms : Nat) (b : Blocks) : Option Nat := some (b.now + ms)

/-- The clock stands at a timer's deadline, or past it: what an expiry says of the present moment (log 4). -/
def Blocks.atDeadline (d : Nat) (b : Blocks) : Blocks := { b with now := max b.now d }

/-! ## Kinds of frame -/

/-- The class of a kind (R5). -/
def Kind.cls : Kind → Nat
  | .budget => 1
  | .flowAsk | .flowDrop => 2
  | .join | .gone | .rebase => 3
  | .slabAdd | .claim | .release | .reclaim | .consume | .scrap | .freeOrphan => 4
  | .jobOpen | .jobClose | .costReport => 5
  | .hello => 6
  | .syncAsk | .snap => 7

/-- The kind code within its class (R195). -/
def Kind.code : Kind → Nat
  | .budget | .flowAsk | .join | .slabAdd | .jobOpen | .hello | .syncAsk => 1
  | .flowDrop | .gone | .claim | .jobClose | .snap => 2
  | .rebase | .release | .costReport => 3
  | .reclaim => 4
  | .consume => 5
  | .scrap => 6
  | .freeOrphan => 7

/-- The kind that a class and a KIND character name (R195); none for a code not listed. -/
def Kind.ofCodes (cls code : Nat) : Option Kind :=
  match cls, code with
  | 1, 1 => some .budget
  | 2, 1 => some .flowAsk
  | 2, 2 => some .flowDrop
  | 3, 1 => some .join
  | 3, 2 => some .gone
  | 3, 3 => some .rebase
  | 4, 1 => some .slabAdd
  | 4, 2 => some .claim
  | 4, 3 => some .release
  | 4, 4 => some .reclaim
  | 4, 5 => some .consume
  | 4, 6 => some .scrap
  | 4, 7 => some .freeOrphan
  | 5, 1 => some .jobOpen
  | 5, 2 => some .jobClose
  | 5, 3 => some .costReport
  | 6, 1 => some .hello
  | 7, 1 => some .syncAsk
  | 7, 2 => some .snap
  | _, _ => none

/-- Whether a kind is a change frame (R5). -/
def Kind.isChange : Kind → Bool
  | .rebase | .hello | .syncAsk | .snap => false
  | .budget | .flowAsk | .flowDrop | .join | .gone | .slabAdd | .claim | .release | .reclaim | .consume | .scrap
  | .freeOrphan | .jobOpen | .jobClose | .costReport => true

/-! ## The outbound queue -/

/-- Queue order: lowest class first, and by entry order within a class (R13). -/
def OutEntry.before (a e : OutEntry) : Bool :=
  a.frame.kind.cls < e.frame.kind.cls || (a.frame.kind.cls == e.frame.kind.cls && a.order ≤ e.order)

/-- An entry at its place by class and entry order (R13). -/
def insertEntry (e : OutEntry) : List OutEntry → List OutEntry
  | [] => [e]
  | a :: rest => if a.before e then a :: insertEntry e rest else e :: a :: rest

/-- A frame joins the queue as WAITING, its entry order taken at this moment (R14). -/
def Line.enqueue (p : Producer) (f : Frame) (l : Line) : Line :=
  { l with
    queue := insertEntry { frame := f, producer := p, order := l.nextOrder, inEmission := false, again := false } l.queue
    nextOrder := l.nextOrder + 1 }

/-- A producer offers a frame (R14): into the queue while it holds fewer than 12 entries; with 12, the host port's
frame is refused and an internal producer's goes onto the wait list, or into its backlog behind one there. -/
def Line.offer (p : Producer) (f : Frame) (l : Line) : Line :=
  if l.queue.length < 12 then l.enqueue p f
  else if p = .host then l
  else if l.waitList.any (fun w => w.producer == p) then
    { l with backlog := l.backlog ++ [{ producer := p, frame := f }] }
  else { l with waitList := l.waitList ++ [{ producer := p, frame := f }] }

/-- The wait-listed frame of lowest class, the earliest among equals (R14). -/
def bestWaiter : List Waiter → Option Waiter
  | [] => none
  | w :: rest =>
    match bestWaiter rest with
    | none => some w
    | some v => if v.frame.kind.cls < w.frame.kind.cls then some v else some w

/-- The oldest frame of a producer's backlog is offered at once when none of its frames stands on the wait list
(R14), and the next when that frame found room. Where several slots are free at that moment, the offer takes one ahead of
the other wait-listed frames, an order that R14 leaves open. DESIGN CHOICE, log 51. -/
def Line.promote (p : Producer) : Nat → Line → Line
  | 0, l => l
  | n + 1, l =>
    if l.waitList.any (fun w => w.producer == p) then l
    else
      match l.backlog.find? (fun w => w.producer == p) with
      | none => l
      | some w => Line.promote p n ({ l with backlog := l.backlog.erase w }.offer p w.frame)

/-- A freed slot goes to the wait list's frame of lowest class (R14), as often as there is a slot and a frame; the backlog
of the frame admitted is offered before the next slot is given. DESIGN CHOICE, log 51. -/
def Line.refill : Nat → Line → Line
  | 0, l => l
  | n + 1, l =>
    if l.queue.length < 12 then
      match bestWaiter l.waitList with
      | none => l
      | some w =>
        Line.refill n
          (Line.promote w.producer l.backlog.length
            ({ l with waitList := l.waitList.erase w }.enqueue w.producer w.frame))
    else l

/-- Every freed slot is given to the wait list (R14). -/
def Line.settle (l : Line) : Line := l.refill (l.waitList.length + l.backlog.length)

/-- Whether an entry is a frame of a producer that a test picks. -/
def OutEntry.isOf (p : Producer) (sel : Frame → Bool) (e : OutEntry) : Bool := e.producer == p && sel e.frame

/-- Whether a waiting frame is one of a producer that a test picks. -/
def Waiter.isOf (p : Producer) (sel : Frame → Bool) (w : Waiter) : Bool := w.producer == p && sel w.frame

/-- A frame of the producer stands on the wait list or in its backlog (R14). -/
def Line.waits (p : Producer) (sel : Frame → Bool) (l : Line) : Bool :=
  l.waitList.any (Waiter.isOf p sel) || l.backlog.any (Waiter.isOf p sel)

/-- A frame of the producer is WAITING in the queue, on the wait list or in its backlog (R14). -/
def Line.heldWaiting (p : Producer) (sel : Frame → Bool) (l : Line) : Bool :=
  l.queue.any (fun e => e.isOf p sel && !e.inEmission) || l.waits p sel

/-- A frame of the producer is WAITING, IN_EMISSION or on the wait list (R14). -/
def Line.held (p : Producer) (sel : Frame → Bool) (l : Line) : Bool :=
  l.queue.any (OutEntry.isOf p sel) || l.waits p sel

/-- The frames that stand in the queue, on the wait list and in the backlogs. -/
def Line.frames (l : Line) : List Waiter :=
  l.queue.map (fun e => { producer := e.producer, frame := e.frame }) ++ l.waitList ++ l.backlog

/-- The answer to a withdrawal (R15): whether a frame was WITHDRAWN, and whether one was answered STARTED. -/
structure Withdrawal where
  withdrawn : Bool
  started : Bool
  deriving DecidableEq, Repr

/-- The answer that a withdrawal of a producer's frames receives (R15): the state of each entry decides. -/
def Line.withdrawAnswer (p : Producer) (sel : Frame → Bool) (l : Line) : Withdrawal :=
  { withdrawn := l.heldWaiting p sel, started := l.queue.any (fun e => e.isOf p sel && e.inEmission) }

/-- A withdrawal (R15): WAITING entries, wait-listed and backlog frames are removed and the slots freed (R14); an
entry IN_EMISSION stands, marked when its producer is to withdraw it again. Where one withdrawal takes several frames, R14
and R15 give no order; the model removes them all, and then gives the freed slots out. DESIGN CHOICE, log 51. -/
def Line.withdraw (p : Producer) (sel : Frame → Bool) (again : Bool) (l : Line) : Line :=
  let queue := (l.queue.filter (fun e => !(e.isOf p sel && !e.inEmission))).map
    (fun e => if e.isOf p sel then { e with again := e.again || again } else e)
  let waitList := l.waitList.filter (fun w => !w.isOf p sel)
  let backlog := l.backlog.filter (fun w => !w.isOf p sel)
  Line.promote p l.backlog.length (Line.settle { l with queue := queue, waitList := waitList, backlog := backlog })

/-- The entry IN_EMISSION; at most one is (R13). -/
def Line.emitting (l : Line) : Option OutEntry := l.queue.find? (fun e => e.inEmission)

/-- An attempt that did not complete: its entry returns to WAITING at its place (R13). -/
def Line.backToWaiting (l : Line) : Line :=
  { l with queue := l.queue.map (fun e => { e with inEmission := false, again := false }), tx := [] }

/-- The completed entry leaves the queue and its slot is freed (R19, R14). -/
def Line.dropEmitted (l : Line) : Line :=
  Line.settle { l with queue := l.queue.filter (fun e => !e.inEmission), tx := [] }

/-- The queue, the wait list and every backlog are emptied (R22, R23). -/
def Line.emptied (l : Line) : Line := { l with queue := [], waitList := [], backlog := [], tx := [] }

/-- Whether the line controller takes offers: it turns every frame away in MUTE (R22), and none is made when INERT. In the
listen window it takes them and starts none (R52): the COST_REPORTs of a build that ends in the window wait in the queue.
DESIGN CHOICE, log 8. -/
def Membership.offers : Membership → Bool
  | .inert | .mute => false
  | .outside _ | .joining | .member => true

/-- A block offers a frame; in MUTE it is turned away, DISCARDED (R22). -/
def Blocks.offer (p : Producer) (f : Frame) (b : Blocks) : Blocks :=
  if b.pres.mem.offers then { b with line := b.line.offer p f } else b

/-- A block withdraws its frames that a test picks (R15). -/
def Blocks.withdraw (p : Producer) (sel : Frame → Bool) (b : Blocks) : Blocks :=
  { b with line := b.line.withdraw p sel false }

/-! ## Notices -/

/-- A block posts a notice (R191): it joins the queue, or is dropped and counted when 16 stand there. An INERT
station posts nothing (R50). -/
def Blocks.post (n : Notice) (b : Blocks) : Blocks :=
  if b.pres.mem = .inert then b
  else if b.host.notices.length < 16 then
    { b with host := { b.host with notices := b.host.notices ++ [n], attn := true } }
  else { b with host := { b.host with lost := min 255 (b.host.lost + 1) } }

end Sys2Proof.Machine
end

