-- ==== Sys2Proof/Machine/Operands.lean ====
section
/-! DEFINITION. The operand forms of 11_formats: multi-byte fields most significant byte first (R194), slab ids and
enumerated codes (R195, R196), frame payloads (R197), snapshot records (R198) and notice details (R201). -/

namespace Sys2Proof.Machine

/-! ## Fields -/

/-- A two-byte field (R194). -/
def be16 (a b : Byte) : Nat := a.toNat * 256 + b.toNat

/-- A four-byte field (R194). -/
def be32 (a b c d : Byte) : Nat := ((a.toNat * 256 + b.toNat) * 256 + c.toNat) * 256 + d.toNat

/-- A number as one byte. -/
def byte1 (n : Nat) : Byte := BitVec.ofNat 8 n

/-- A number as a two-byte field (R194). -/
def bytes2 (n : Nat) : List Byte := [byte1 (n / 256), byte1 n]

/-- A number as a four-byte field (R194). -/
def bytes4 (n : Nat) : List Byte := [byte1 (n / 16777216), byte1 (n / 65536), byte1 (n / 256), byte1 n]

/-- A flag as a byte of 0 or 1. -/
def flag (b : Bool) : Byte := if b then 1 else 0

/-- A value in a closed range. -/
def within (lo hi n : Nat) : Bool := lo ≤ n && n ≤ hi

/-- A slab id's two bytes as a number (R195): origin in the high 4 bits, serial in the low 12. -/
def SlabId.code (i : SlabId) : Nat := i.origin * 4096 + i.serial

/-- The slab id a two-byte field gives; none when its origin or serial is 0 (R195). -/
def SlabId.ofCode (n : Nat) : Option SlabId :=
  if n / 4096 = 0 || n % 4096 = 0 || 65536 ≤ n then none else some { origin := n / 4096, serial := n % 4096 }

/-! ## Enumerated codes (R196) -/

def Role.code : Role → Nat
  | .cutter => 0
  | .plant => 1

def SlabKind.code : SlabKind → Nat
  | .sheet => 0
  | .remnant => 1

def SlabState.code : SlabState → Nat
  | .free => 0
  | .claimed => 1
  | .orphaned => 2

def JobState.code : JobState → Nat
  | .opened => 0
  | .closing => 1
  | .closed => 2

def Membership.code : Membership → Nat
  | .inert => 0
  | .outside _ => 1
  | .joining => 2
  | .member => 3
  | .mute => 4

def Membership.phaseCode : Membership → Nat
  | .outside .listen => 1
  | .outside .asking => 2
  | .outside .building => 3
  | .inert | .joining | .member | .mute => 0

def ReplicaState.code : ReplicaState → Nat
  | .empty => 0
  | .building => 1
  | .current => 2
  | .stale => 3

def PlanState.code : PlanState → Nat
  | .claiming => 1
  | .planning => 2
  | .sealed => 3
  | .loadWait => 4
  | .running => 5
  | .consuming => 6
  | .faulted => 7
  | .reclaiming => 8

def SawState.code : SawState → Nat
  | .idle => 0
  | .loadWait => 1
  | .waterWait => 2
  | .spinup => 3
  | .cutting => 4
  | .held => 5
  | .indexWait => 6
  | .finishing => 7
  | .faulted => 8

def FaultReason.code : FaultReason → Nat
  | .water => 1
  | .jam => 2
  | .dry => 3
  | .stall => 4
  | .stop => 5
  | .slabLost => 6

/-- The fault reason byte, 0 for none. -/
def faultCode : Option FaultReason → Nat
  | none => 0
  | some r => r.code

def CutKind.code : CutKind → Nat
  | .cross => 0
  | .rip => 1

def Band.code : Band → Nat
  | .halt => 1
  | .low => 2
  | .mid => 3
  | .high => 4
  | .top => 5

/-- The level band byte, 0 for none. -/
def bandCode : Option Band → Nat
  | none => 0
  | some x => x.code

def ReportState.code : ReportState → Nat
  | .accruing => 0
  | .due => 1
  | .sent => 2
  | .refused => 3

def RefusalReason.code : RefusalReason → Nat
  | .idPresent => 1
  | .tableFull => 2
  | .discarded => 3
  | .active => 4
  | .notOpen => 5

/-- Failure kinds of LINE_FAULT (R196); a lost arbitration is no failure (R17). -/
def Attempt.code : Attempt → Nat
  | .lost => 0
  | .collision => 1
  | .broke => 2

def Status.code : Status → Nat
  | .ok => 0
  | .queued => 1
  | .badRequest => 2
  | .badField => 3
  | .wrongRole => 4
  | .notLive => 5
  | .full => 6
  | .notFound => 7
  | .wrongState => 8
  | .inert => 9

/-! ## Tallies and pending sets -/

/-- A tally of 0 in every field. -/
def Tally.zero : Tally := { stone := 0, waste := 0, cost := 0, water := 0, blade := 0, face := 0, pieces := 0 }

/-- Some field is above 0: the line holds charges (R172). -/
def Tally.charged (t : Tally) : Bool :=
  0 < t.stone || 0 < t.waste || 0 < t.cost || 0 < t.water || 0 < t.blade || 0 < t.face || 0 < t.pieces

/-- The largest value of a four-byte sum (R165). -/
def maxSum : Nat := 4294967295

/-- Addition of two tallies; a field that would pass its largest value stays there (R165). -/
def Tally.add (a t : Tally) : Tally :=
  { stone := min maxSum (a.stone + t.stone), waste := min maxSum (a.waste + t.waste)
    cost := min maxSum (a.cost + t.cost), water := min maxSum (a.water + t.water)
    blade := min maxSum (a.blade + t.blade), face := min maxSum (a.face + t.face)
    pieces := min 65535 (a.pieces + t.pieces) }

/-- A tally as 26 bytes (R196). -/
def Tally.bytes (t : Tally) : List Byte :=
  bytes4 t.stone ++ bytes4 t.waste ++ bytes4 t.cost ++ bytes4 t.water ++ bytes4 t.blade ++ bytes4 t.face ++
    bytes2 t.pieces

/-- The tally that 26 bytes carry (R196). -/
def Tally.ofBytes : List Byte → Option Tally
  | [a0, a1, a2, a3, b0, b1, b2, b3, c0, c1, c2, c3, d0, d1, d2, d3, e0, e1, e2, e3, f0, f1, f2, f3, g0, g1] =>
    some { stone := be32 a0 a1 a2 a3, waste := be32 b0 b1 b2 b3, cost := be32 c0 c1 c2 c3
           water := be32 d0 d1 d2 d3, blade := be32 e0 e1 e2 e3, face := be32 f0 f1 f2 f3, pieces := be16 g0 g1 }
  | _ => none

/-- A pending set as a number: bit s for station s (R196). -/
def pendingBits (l : List Nat) : Nat := (l.map (fun s => 2 ^ s)).sum

/-- The stations 1 to 15. -/
def stations : List Nat := [1, 2, 3, 4, 5, 6, 7, 8, 9, 10, 11, 12, 13, 14, 15]

/-- The pending set a two-byte field gives, by station number (R196). -/
def pendingOf (n : Nat) : List Nat := stations.filter (fun s => n / 2 ^ s % 2 = 1)

/-! ## Payloads of the change frames (R197) -/

/-- One remnant of a CONSUME (R83). -/
structure Remnant where
  serial : Nat
  length : Nat
  width : Nat
  deriving DecidableEq, Repr

/-- A change frame whose payload passes its tests: what it asks of the replica. -/
inductive Change where
  | budget (value : Nat)
  | flowAsk (asked : Nat)
  | flowDrop
  | join (role : Role)
  | gone (station : Nat)
  | slabAdd (serial material thickness length width rack rate : Nat)
  | claim (id : SlabId)
  | release (id : SlabId)
  | reclaim (id : SlabId)
  | consume (parent : SlabId) (abandoned : Bool) (total : Nat) (remnants : List Remnant)
  | scrap (id : SlabId)
  | freeOrphan (id : SlabId)
  | jobOpen (number : Nat)
  | jobClose (number : Nat)
  | costReport (number : Nat) (sums : Tally)
  deriving DecidableEq, Repr

/-- The slab fields of a registration lie in their ranges (R68). -/
def slabFieldsOk (material thickness length width : Nat) : Bool :=
  within 1 250 material && within 12 60 thickness && within 100 4000 length && within 100 2200 width

/-- The remnants of a CONSUME payload, six bytes each, every field in its range (R83). -/
def remnantsOf : List Byte → Option (List Remnant)
  | [] => some []
  | s1 :: s0 :: l1 :: l0 :: w1 :: w0 :: rest =>
    match remnantsOf rest with
    | none => none
    | some rs =>
      if within 1 4095 (be16 s1 s0) && within 100 4000 (be16 l1 l0) && within 100 2200 (be16 w1 w0) then
        some ({ serial := be16 s1 s0, length := be16 l1 l0, width := be16 w1 w0 } :: rs)
      else none
  | _ => none

/-- The payload of one slab id (R197). -/
def idPayload : List Byte → Option SlabId
  | [a, b] => SlabId.ofCode (be16 a b)
  | _ => none

/-- The payload of one job number; 0 is out of range (R166, R167). -/
def jobPayload : List Byte → Option Nat
  | [a, b] => if be16 a b = 0 then none else some (be16 a b)
  | _ => none

/-- The payload step of R72 and R197: none when LENGTH is not the kind's, a field is out of range, or a flag byte
holds a value not listed. JOIN has no void case; its role is PLANT when its first byte is 1 (R197). -/
def parseChange (k : Kind) (p : List Byte) : Option Change :=
  match k with
  | .budget =>
    match p with
    | [a, b] => if be16 a b ≤ 8000 then some (.budget (be16 a b)) else none
    | _ => none
  | .flowAsk =>
    match p with
    | [a, b] => if within 100 2000 (be16 a b) then some (.flowAsk (be16 a b)) else none
    | _ => none
  | .flowDrop => if p.isEmpty then some .flowDrop else none
  | .join => some (.join (if p.head? = some 1 then .plant else .cutter))
  | .gone =>
    match p with
    | [a] => if within 1 15 a.toNat then some (.gone a.toNat) else none
    | _ => none
  | .slabAdd =>
    match p with
    | [s1, s0, m, t, l1, l0, w1, w0, r, q1, q0] =>
      if within 1 4095 (be16 s1 s0) && slabFieldsOk m.toNat t.toNat (be16 l1 l0) (be16 w1 w0) then
        some (.slabAdd (be16 s1 s0) m.toNat t.toNat (be16 l1 l0) (be16 w1 w0) r.toNat (be16 q1 q0))
      else none
    | _ => none
  | .claim => (idPayload p).map .claim
  | .release => (idPayload p).map .release
  | .reclaim => (idPayload p).map .reclaim
  | .scrap => (idPayload p).map .scrap
  | .freeOrphan => (idPayload p).map .freeOrphan
  | .consume =>
    match p with
    | p1 :: p0 :: flags :: t3 :: t2 :: t1 :: t0 :: count :: rest =>
      match SlabId.ofCode (be16 p1 p0), remnantsOf rest with
      | some parent, some rs =>
        if flags.toNat ≤ 1 && be32 t3 t2 t1 t0 ≤ 8800000 && count.toNat ≤ 3 && rs.length = count.toNat then
          some (.consume parent (flags.toNat = 1) (be32 t3 t2 t1 t0) rs)
        else none
      | _, _ => none
    | _ => none
  | .jobOpen => (jobPayload p).map .jobOpen
  | .jobClose => (jobPayload p).map .jobClose
  | .costReport =>
    match jobPayload (p.take 2), Tally.ofBytes (p.drop 2) with
    | some n, some t => some (.costReport n t)
    | _, _ => none
  | .rebase | .hello | .syncAsk | .snap => none

/-- A broadcast frame of a kind with a payload (R5). -/
def mkFrame (k : Kind) (payload : List Byte) : Frame := { kind := k, target := 0, payload := payload }

/-- The SLAB_ADD payload (R197). -/
def slabAddPayload (serial material thickness length width rack rate : Nat) : List Byte :=
  bytes2 serial ++ [byte1 material, byte1 thickness] ++ bytes2 length ++ bytes2 width ++ [byte1 rack] ++ bytes2 rate

/-- A remnant's six bytes (R197). -/
def Remnant.bytes (r : Remnant) : List Byte := bytes2 r.serial ++ bytes2 r.length ++ bytes2 r.width

/-- The CONSUME payload (R197). -/
def consumePayload (parent : SlabId) (abandoned : Bool) (total : Nat) (rs : List Remnant) : List Byte :=
  bytes2 parent.code ++ [flag abandoned] ++ bytes4 total ++ [byte1 rs.length] ++ (rs.map Remnant.bytes).flatten

/-! ## Snapshot records (R198) -/

/-- A snapshot record. -/
inductive Record where
  | member (m : Member)
  | head (budget : Nat) (plant : Option Nat)
  | entry (e : Entry)
  | slab (slot : Nat) (r : Slab)
  | job (slot : Nat) (r : Job)
  | fin (members entries slabs jobs : Nat)
  deriving DecidableEq, Repr

/-- The section a record belongs to, in the stream order of R33. -/
def Record.section : Record → Nat
  | .member _ => 1
  | .head _ _ | .entry _ => 2
  | .slab _ _ => 3
  | .job _ _ => 4
  | .fin _ _ _ _ => 5

/-- A station that may be absent (R194). -/
def optStation : Option Nat → Nat
  | none => 0
  | some s => s

/-- The 16 bytes of a slab record (R198). -/
def Slab.body (r : Slab) : List Byte :=
  bytes2 r.id.code ++ [byte1 r.kind.code] ++ bytes2 (match r.parent with | none => 0 | some p => p.code) ++
    [byte1 r.material, byte1 r.thickness] ++ bytes2 r.length ++ bytes2 r.width ++ [byte1 r.rack] ++ bytes2 r.rate ++
    [byte1 r.state.code, byte1 (optStation r.holder)]

/-- The 36 bytes of a job record (R198). -/
def Job.body (r : Job) : List Byte :=
  bytes2 r.number ++ [byte1 r.state.code, byte1 r.opener, byte1 (optStation r.closer)] ++
    bytes2 (pendingBits r.pending) ++
    [byte1 ((if r.short then 1 else 0) + (if r.closing.isSome then 2 else 0))] ++
    bytes2 (match r.closing with | none => 0 | some g => g.toNat) ++ r.tally.bytes

/-- The record type code and body of a record (R198). -/
def Record.bytes : Record → List Byte
  | .member m => [1, byte1 m.station, byte1 m.role.code]
  | .head budget plant => [2] ++ bytes2 budget ++ [byte1 (optStation plant)]
  | .entry e => [3, byte1 e.station] ++ bytes2 e.asked ++ bytes2 e.granted
  | .slab slot r => [4, byte1 slot] ++ r.body
  | .job slot r => [5, byte1 slot] ++ r.body
  | .fin members entries slabs jobs => [6, byte1 members, byte1 entries, byte1 slabs, byte1 jobs]

/-- A SNAP payload: the sequence number, then the record (R198). -/
def snapPayload (seq : Nat) (r : Record) : List Byte := bytes2 seq ++ r.bytes

/-- The slab record of 16 bytes, every field in its range with its codes listed (R68, R198). -/
def Slab.ofBody : List Byte → Option Slab
  | [i1, i0, k, p1, p0, m, t, l1, l0, w1, w0, r, q1, q0, st, h] =>
    match SlabId.ofCode (be16 i1 i0) with
    | none => none
    | some id =>
      let parent := SlabId.ofCode (be16 p1 p0)
      let kindOk := (k.toNat = 0 && be16 p1 p0 = 0) || (k.toNat = 1 && parent.isSome)
      let stateOk := (st.toNat = 0 && h.toNat = 0) || (within 1 2 st.toNat && within 1 15 h.toNat)
      if kindOk && stateOk && slabFieldsOk m.toNat t.toNat (be16 l1 l0) (be16 w1 w0) then
        some
          { id := id, kind := if k.toNat = 0 then .sheet else .remnant, parent := parent
            material := m.toNat, thickness := t.toNat, length := be16 l1 l0, width := be16 w1 w0
            rack := r.toNat, rate := be16 q1 q0
            state := if st.toNat = 0 then .free else if st.toNat = 1 then .claimed else .orphaned
            holder := if h.toNat = 0 then none else some h.toNat }
      else none
  | _ => none

/-- The job record of 36 bytes, every field in its range with its codes listed (R165, R198). Whether fields that
contradict each other fail the check no rule says: they pass. DESIGN CHOICE, log 44. -/
def Job.ofBody : List Byte → Option Job
  | n1 :: n0 :: st :: op :: cl :: pe1 :: pe0 :: fl :: g1 :: g0 :: rest =>
    match Tally.ofBytes rest with
    | none => none
    | some tally =>
      if be16 n1 n0 ≠ 0 && st.toNat ≤ 2 && within 1 15 op.toNat && cl.toNat ≤ 15 && be16 pe1 pe0 % 2 = 0 &&
          fl.toNat ≤ 3 then
        some
          { number := be16 n1 n0
            state := if st.toNat = 0 then .opened else if st.toNat = 1 then .closing else .closed
            opener := op.toNat, closer := if cl.toNat = 0 then none else some cl.toNat
            pending := pendingOf (be16 pe1 pe0), short := fl.toNat % 2 = 1
            closing := if 2 ≤ fl.toNat then some (BitVec.ofNat 16 (be16 g1 g0)) else none, tally := tally }
      else none
  | _ => none

/-- The record of a SNAP after its sequence number: the type listed, LENGTH that type's, each field in its range (R198). -/
def Record.ofBytes : List Byte → Option Record
  | t :: rest =>
    match t.toNat with
    | 1 =>
      match rest with
      | [s, r] =>
        if within 1 15 s.toNat && r.toNat ≤ 1 then
          some (.member { station := s.toNat, role := if r.toNat = 0 then .cutter else .plant })
        else none
      | _ => none
    | 2 =>
      match rest with
      | [b1, b0, p] =>
        if be16 b1 b0 ≤ 8000 && p.toNat ≤ 15 then
          some (.head (be16 b1 b0) (if p.toNat = 0 then none else some p.toNat))
        else none
      | _ => none
    | 3 =>
      match rest with
      | [s, a1, a0, g1, g0] =>
        if within 1 15 s.toNat && within 100 2000 (be16 a1 a0) && be16 g1 g0 ≤ be16 a1 a0 then
          some (.entry { station := s.toNat, asked := be16 a1 a0, granted := be16 g1 g0 })
        else none
      | _ => none
    | 4 =>
      match rest with
      | slot :: body => if slot.toNat ≤ 159 then (Slab.ofBody body).map (.slab slot.toNat) else none
      | _ => none
    | 5 =>
      match rest with
      | slot :: body => if slot.toNat ≤ 47 then (Job.ofBody body).map (.job slot.toNat) else none
      | _ => none
    | 6 =>
      match rest with
      | [m, e, s, j] =>
        if m.toNat ≤ 15 && e.toNat ≤ 15 && s.toNat ≤ 160 && j.toNat ≤ 48 then
          some (.fin m.toNat e.toNat s.toNat j.toNat)
        else none
      | _ => none
    | _ => none
  | _ => none

/-- The sequence number a SNAP payload begins with (R198). -/
def snapSeq : List Byte → Option Nat
  | a :: b :: _ => some (be16 a b)
  | _ => none

/-- The record of a SNAP payload that passes the check of R198; sequence numbers run 0 to 239. -/
def snapRecord (p : List Byte) : Option Record :=
  match snapSeq p with
  | some n => if n ≤ 239 then Record.ofBytes (p.drop 2) else none
  | none => none

/-! ## Notices (R201) -/

/-- The kind code of a notice (R201). -/
def Notice.code : Notice → Nat
  | .joined .. => 1
  | .goneSelf .. => 2
  | .stale .. => 3
  | .synced .. => 4
  | .syncFailed .. => 5
  | .duplicateStation .. => 6
  | .lineFault .. => 7
  | .plantConflict .. => 8
  | .slabAdded .. => 9
  | .addRefused .. => 10
  | .piecePlaced .. => 11
  | .pieceWaiting .. => 12
  | .planSealed .. => 13
  | .cutDone .. => 14
  | .planDone .. => 15
  | .planFault .. => 16
  | .grantChanged .. => 17
  | .jobRefused .. => 18
  | .jobPiecesCancelled .. => 19
  | .tallyDone .. => 20
  | .reportRefused .. => 21

/-- The detail of a notice, packed from the first byte (R201). -/
def Notice.detail : Notice → List Byte
  | .joined station role => [byte1 station, byte1 role.code]
  | .goneSelf gen => bytes2 gen.toNat
  | .stale own frame => bytes2 own.toNat ++ bytes2 frame.toNat
  | .synced gen => bytes2 gen.toNat
  | .syncFailed gen state => bytes2 gen.toNat ++ [byte1 state.code]
  | .duplicateStation kind => [byte1 kind.cls, byte1 kind.code]
  | .lineFault last => [byte1 last.code]
  | .plantConflict plant gen => [byte1 plant] ++ bytes2 gen.toNat
  | .slabAdded id slot => bytes2 id.code ++ [byte1 slot]
  | .addRefused id reason => bytes2 id.code ++ [byte1 reason.code]
  | .piecePlaced piece slab index rotated => [byte1 piece] ++ bytes2 slab.code ++ [byte1 index, flag rotated]
  | .pieceWaiting piece job => [byte1 piece] ++ bytes2 job
  | .planSealed slab placements cuts => bytes2 slab.code ++ [byte1 placements, byte1 cuts]
  | .cutDone index kind job => [byte1 index, byte1 kind.code] ++ bytes2 job
  | .planDone slab pieces abandoned => bytes2 slab.code ++ [byte1 pieces, flag abandoned]
  | .planFault reason cut enc => [byte1 reason.code, byte1 cut] ++ bytes2 enc
  | .grantChanged new previous gen => bytes2 new ++ bytes2 previous ++ bytes2 gen.toNat
  | .jobRefused job kind reason => bytes2 job ++ [byte1 kind.code, byte1 reason.code]
  | .jobPiecesCancelled job pieces => bytes2 job ++ [byte1 pieces]
  | .tallyDone job short closing => bytes2 job ++ [flag short] ++ bytes2 closing.toNat
  | .reportRefused slot job gen => [byte1 slot] ++ bytes2 job ++ bytes2 gen.toNat

/-- A list of bytes filled up with zeros to a length. -/
def padTo (n : Nat) (l : List Byte) : List Byte := l ++ List.replicate (n - l.length) 0

end Sys2Proof.Machine
end

