-- ==== Sys2Proof/Machine/Flags.lean ====
section
/-! DEFINITION. The computed flags and tests of the part: the folded sum (R6), LIVE and watching (R51, R59), the
effective grant (R100), the 60% and 25% tests, need, feed and period of the saw (R141 to R143, R152), the filtered
values (R104) and the plant's level and band (R109). -/

namespace Sys2Proof.Machine

/-! ## The line -/

/-- One addition of the folded sum: past 255, take off 256 and add 1 (R6). -/
def foldAdd (t c : Nat) : Nat := if t + c ≤ 255 then t + c else t + c - 255

/-- The folded sum of a run of characters (R6). -/
def foldedSum (l : List Byte) : Nat := l.foldl (fun t c => foldAdd t c.toNat) 0

/-- The frame time limit for a LENGTH, in bit times: (7 + LENGTH) × 11 × 1.4, rounded up (R9). -/
def timeLimit (length : Nat) : Nat := ((7 + length) * 154 + 9) / 10

/-- The head character of a kind sent by a station (R195). -/
def headByte (k : Kind) (station : Nat) : Byte := byte1 (k.cls * 16 + station)

/-- The characters of a frame as it goes out, GEN filled and CHECK computed (R4, R6, R16). -/
def frameChars (station : Nat) (gen : Word16) (f : Frame) : List Byte :=
  let front := [headByte f.kind station, byte1 f.kind.code, byte1 f.target, byte1 f.payload.length] ++
    bytes2 gen.toNat ++ f.payload
  front ++ [byte1 (255 - foldedSum front)]

/-! ## Membership and replica -/

/-- The replica is CURRENT. -/
def Shop.current (sh : Shop) : Bool := sh.state == .current

/-- The station is a MEMBER. -/
def Blocks.isMember (b : Blocks) : Bool := b.pres.mem == .member

/-- The station is LIVE: a MEMBER with a CURRENT replica (R51); it then also watches the others (R59). -/
def live (sh : Shop) (b : Blocks) : Bool := b.isMember && sh.current

/-- A station stands in a member set. -/
def memberOf (s : Nat) (r : Replica) : Bool := r.members.any (fun m => m.station == s)

/-- The role of a member. -/
def roleOf (s : Nat) (r : Replica) : Option Role := (r.members.find? (fun m => m.station == s)).map (·.role)

/-- A station's water entry. -/
def Ledger.entryOf (s : Nat) (l : Ledger) : Option Entry := l.entries.find? (fun e => e.station == s)

/-- The effective grant of a CUTTER: its own entry's grant in a CURRENT replica, and 0 in every other case (R100). A replica
rebuilt after REJOIN may still hold the own entry while the station is JOINING; R138 and R149 have the grant 0 until it is
LIVE or a MEMBER again, R100 asks for CURRENT alone, and the model follows R100. DEDUCED, log 56. -/
def effGrant (sh : Shop) (b : Blocks) : Nat :=
  if sh.current && b.pres.role == .cutter then
    match sh.rep.ledger.entryOf b.pres.station with
    | some e => e.granted
    | none => 0
  else 0

/-- The slab record of an id, with its slot, or with none when it is held unsettled (R42). -/
def Replica.findSlab (i : SlabId) (r : Replica) : Option (Option Nat × Slab) :=
  match r.slabs.find? (fun p => p.2.id == i) with
  | some (slot, x) => some (some slot, x)
  | none => (r.looseSlabs.find? (fun x => x.id == i)).map (fun x => (none, x))

/-- The slab record of an id. -/
def Replica.slab? (i : SlabId) (r : Replica) : Option Slab := (r.findSlab i).map (·.2)

/-- Every slab record held, settled or not. -/
def Replica.allSlabs (r : Replica) : List Slab := r.slabs.map (·.2) ++ r.looseSlabs

/-- A station is the holder of some slab record (R71). -/
def Replica.holds (s : Nat) (r : Replica) : Bool := r.allSlabs.any (fun x => x.holder == some s)

/-- The job record of a number, with its slot when it has one. -/
def Replica.findJob (n : Nat) (r : Replica) : Option (Option Nat × Job) :=
  match r.jobs.find? (fun p => p.2.number == n) with
  | some (slot, x) => some (some slot, x)
  | none => (r.looseJobs.find? (fun x => x.number == n)).map (fun x => (none, x))

/-- The job record of a number. -/
def Replica.job? (n : Nat) (r : Replica) : Option Job := (r.findJob n).map (·.2)

/-- Every job record held, settled or not. -/
def Replica.allJobs (r : Replica) : List Job := r.jobs.map (·.2) ++ r.looseJobs

/-- The replica holds the job OPEN: its pieces are eligible (R119). -/
def jobOpenIn (n : Nat) (r : Replica) : Bool :=
  match r.job? n with
  | some j => j.state == .opened
  | none => false

/-! ## The saw -/

/-- The need of a thickness in mL/s (R141). -/
def needOf (thickness : Nat) : Nat := if thickness ≤ 20 then 400 else if thickness ≤ 30 then 500 else 650

/-- The base feed of a thickness in mm/min (R141). -/
def baseFeedOf (thickness : Nat) : Nat := if thickness ≤ 20 then 1500 else if thickness ≤ 30 then 1000 else 600

/-- The 60% test (R141). -/
def atLeast60 (g need : Nat) : Bool := need * 6 ≤ g * 10

/-- The 25% test (R141). -/
def atLeast25 (g need : Nat) : Bool := need ≤ g * 4

/-- The need of the plan the sequencer runs. -/
def Saw.need (w : Saw) : Nat :=
  match w.plan with
  | some p => p.need
  | none => 0

/-- A cut of the sequencer's list, counted from 1. -/
def Saw.cut? (n : Nat) (w : Saw) : Option Cut :=
  match w.plan with
  | some p => if n = 0 then none else p.cuts[n - 1]?
  | none => none

/-- The current cut's target in counts: its length × 10 (R144). -/
def Saw.target (w : Saw) : Nat :=
  match w.cut? w.cur with
  | some c => c.length * 10
  | none => 0

/-- The index of the first PENDING cut of a list, counted from 1. -/
def nextPending (cuts : List Cut) : Option Nat := (cuts.findIdx? (fun c => !c.done)).map (· + 1)

/-- The index of the sequencer's next PENDING cut. -/
def Saw.nextCut (w : Saw) : Option Nat :=
  match w.plan with
  | some p => nextPending p.cuts
  | none => none

/-- The feed rate F in mm/min (R152). -/
def feedRate (base need g : Nat) (derate : Bool) : Nat :=
  if derate then base * min g need / need / 2 else base * min g need / need

/-- The pulse period in microseconds at a feed rate (R143). -/
def pulsePeriod (f : Nat) : Nat := 6000000 / f

/-- The valve flow at a grant: the duty min(g, need) / need of the need (R142). -/
def Saw.flowAt (g : Nat) (w : Saw) : Nat := min g w.need

/-- The charge job (R156, R174): in INDEX_WAIT the job of the next PENDING cut, else that of the current cut while it
is entered and not DONE. -/
def Saw.chargeJob (w : Saw) : Option Nat :=
  if w.st = .indexWait then (w.nextCut.bind (fun n => w.cut? n)).map (·.job)
  else if w.entered then (w.cut? w.cur).bind (fun c => if c.done then none else some c.job)
  else none

/-! ## Measurement and plant -/

/-- The filtered value of a history: the mean of four results, rounded down; none while fewer are held (R104). -/
def filtered : List Nat → Option Nat
  | [a, x, c, d] => some ((a + x + c + d) / 4)
  | _ => none

/-- A result joins a history of at most four (R104). -/
def joinHistory (h : List Nat) (v : Nat) : List Nat := if h.length < 4 then h ++ [v] else h.tail ++ [v]

/-- The clean-tank level as a percentage (R109). -/
def levelOf (ma : Nat) : Nat := ma * 100 / 1023

/-- The band that holds a level (R109). -/
def bandOf (level : Nat) : Band :=
  if level < 10 then .halt else if level < 20 then .low else if level < 40 then .mid else if level < 70 then .high
  else .top

/-- The lower edge of a band (R109). -/
def Band.lower : Band → Nat
  | .halt => 0
  | .low => 10
  | .mid => 20
  | .high => 40
  | .top => 70

/-- The next band up (R109). -/
def Band.up : Band → Option Band
  | .halt => some .low
  | .low => some .mid
  | .mid => some .high
  | .high => some .top
  | .top => none

/-- The band after a scan at a level (R109): down at once, up one band at its edge plus 2. -/
def bandAfter (old : Option Band) (level : Nat) : Band :=
  match old with
  | none => bandOf level
  | some x =>
    if level < x.lower then bandOf level
    else
      match x.up with
      | some u => if u.lower + 2 ≤ level then u else x
      | none => x

/-- The band budget in mL/s (R109). -/
def Band.budget : Band → Nat
  | .halt => 0
  | .low => 800
  | .mid => 2000
  | .high => 4000
  | .top => 6000

/-- The band budget after turbidity (R110). -/
def budgetAfter (x : Band) (turbid : Bool) : Nat := if turbid then x.budget / 2 else x.budget

/-- The published value (R112). -/
def publishedOf (band : Option Band) (turbid : Bool) (correction : Option Nat) : Option Nat :=
  match band with
  | none => none
  | some .halt => some 0
  | some x => some (budgetAfter x turbid - correction.getD 0)

end Sys2Proof.Machine
end

