-- ==== Sys2Proof/Machine/Replica.lean ====
section
/-! DEFINITION. What a taken change frame does to a replica: the flow ledger (05), the stock table (04), the job table
(09) and the member set (03). Each judgment uses nothing but the replica and the frame (R26). The context says how far
a build has come; for a CURRENT replica everything is complete (R42). -/

namespace Sys2Proof.Machine

/-- Why a change frame is void (R72, R73, R89 to R91, R166 to R168). -/
inductive VoidReason where
  | payload | notPlant | otherPlant | notMember | noEntry | idPresent | tableFull | condition | active | notOpen
  deriving DecidableEq, Repr

/-- How far the tables may be judged: the slots insertion may use, whether each section is complete, whether the
ledger section is, and the frame's GEN (R42, R165). -/
structure Ctx where
  slabLimit : Nat
  slabDone : Bool
  jobLimit : Nat
  jobDone : Bool
  ledgerDone : Bool
  gen : Word16
  deriving DecidableEq, Repr

/-- The context of a CURRENT replica. -/
def Ctx.whole (gen : Word16) : Ctx :=
  { slabLimit := 160, slabDone := true, jobLimit := 48, jobDone := true, ledgerDone := true, gen := gen }

/-- The outcome of a judgment (R26): the replica after it, whether the effect was taken or why it was void, the
records that became FREE as stock news (R86), the slot a SLAB_ADD took (R74), and a CONSUME's figures (R85). -/
structure Judged where
  rep : Replica
  void : Option VoidReason
  news : List SlabId
  slot : Option Nat
  figures : Option Figures
  deriving DecidableEq, Repr

/-- The effect was taken. -/
def Judged.taken (j : Judged) : Bool := j.void.isNone

/-- A void frame: no record changes (R26). -/
def voidFor (v : VoidReason) (r : Replica) : Judged :=
  { rep := r, void := some v, news := [], slot := none, figures := none }

/-- A taken effect that is no stock news. -/
def takenAs (r : Replica) : Judged := { rep := r, void := none, news := [], slot := none, figures := none }

/-! ## The flow ledger -/

/-- The sum of the granted flows (R88). -/
def grantSum (l : List Entry) : Nat := (l.map (·.granted)).sum

/-- The room: the budget less the sum of the granted flows (R88). -/
def Ledger.room (l : Ledger) : Nat := l.budget - grantSum l.entries

/-- Cutback over the entries from the newest on: each loses no more than the excess left (R92). -/
def cutNewest : Nat → List Entry → List Entry
  | _, [] => []
  | excess, e :: rest =>
    { e with granted := e.granted - min excess e.granted } :: cutNewest (excess - min excess e.granted) rest

/-- Cutback lowers grants, newest first, until their sum fits the budget (R92). -/
def Ledger.cutback (l : Ledger) : Ledger :=
  { l with entries := (cutNewest (grantSum l.entries - l.budget) l.entries.reverse).reverse }

/-- Top-up over the entries from the oldest on: each short entry is raised by its shortfall or the room (R93). -/
def topOldest : Nat → List Entry → List Entry
  | _, [] => []
  | room, e :: rest =>
    { e with granted := e.granted + min room (e.asked - e.granted) } ::
      topOldest (room - min room (e.asked - e.granted)) rest

/-- Top-up raises short entries, oldest first, while there is room (R93). -/
def Ledger.topUp (l : Ledger) : Ledger := { l with entries := topOldest l.room l.entries }

/-- Cutback and then top-up settle the ledger (R93). -/
def Ledger.settled (l : Ledger) : Ledger := l.cutback.topUp

/-- The budget and every grant go to 0; entries, asked values and order stay (R94, R95). -/
def Ledger.drained (l : Ledger) : Ledger :=
  { l with budget := 0, entries := l.entries.map (fun e => { e with granted := 0 }) }

/-- A station's entry leaves the list; the others keep their order (R88). -/
def Ledger.without (s : Nat) (l : Ledger) : Ledger := { l with entries := l.entries.filter (fun e => e.station != s) }

/-- BUDGET b from a station (R89). -/
def judgeBudget (s value : Nat) (r : Replica) : Judged :=
  if roleOf s r ≠ some .plant then voidFor .notPlant r
  else if r.ledger.plant ≠ none ∧ r.ledger.plant ≠ some s then voidFor .otherPlant r
  else takenAs { r with ledger := Ledger.settled { r.ledger with budget := value, plant := some s } }

/-- FLOW_ASK q from a station: its entry is replaced at the end of the list with a grant from the room (R90). -/
def judgeFlowAsk (s asked : Nat) (r : Replica) : Judged :=
  if memberOf s r then
    let l := r.ledger.without s
    takenAs
      { r with
        ledger := Ledger.settled
          { l with entries := l.entries ++ [{ station := s, asked := asked, granted := min asked l.room }] } }
  else voidFor .notMember r

/-- FLOW_DROP from a station: its entry is removed and top-up runs (R91). -/
def judgeFlowDrop (s : Nat) (r : Replica) : Judged :=
  match r.ledger.entryOf s with
  | none => voidFor .noEntry r
  | some _ => takenAs { r with ledger := (r.ledger.without s).topUp }

/-- The ledger's part of a station's leaving (R95): its entry goes and top-up runs; the plant's leaving drains it. -/
def Ledger.leave (s : Nat) (l : Ledger) : Ledger :=
  let l1 := match l.entryOf s with
    | some _ => (l.without s).topUp
    | none => l
  if l.plant = some s then { l1.drained with plant := none } else l1

/-! ## Members -/

/-- A member record at its place in station order (R55). -/
def addMember (m : Member) : List Member → List Member
  | [] => [m]
  | a :: rest =>
    if m.station < a.station then m :: a :: rest
    else if m.station = a.station then m :: rest
    else a :: addMember m rest

/-- A CLAIMED record whose holder leaves becomes ORPHANED and keeps its holder (R78). -/
def Slab.orphan (s : Nat) (x : Slab) : Slab :=
  if x.state = .claimed ∧ x.holder = some s then { x with state := .orphaned } else x

/-- A CLOSING job loses a station from its pending set; emptied, it becomes CLOSED at this generation (R168, R169). -/
def Job.strike (s : Nat) (gen : Word16) (short : Bool) (x : Job) : Job :=
  if x.state = .closing ∧ s ∈ x.pending then
    let pending := x.pending.filter (· != s)
    { x with
      pending := pending, short := x.short || short
      state := if pending.isEmpty then .closed else .closing
      closing := if pending.isEmpty then some gen else x.closing }
  else x

/-- The whole effect of a member's leaving (R61); the ledger's part only in a ledger that is complete (R41). -/
def Replica.leave (c : Ctx) (s : Nat) (r : Replica) : Replica :=
  { members := r.members.filter (fun m => m.station != s)
    ledger := if c.ledgerDone then r.ledger.leave s else r.ledger
    slabs := r.slabs.map (fun p => (p.1, p.2.orphan s))
    jobs := r.jobs.map (fun p => (p.1, p.2.strike s c.gen true))
    looseSlabs := r.looseSlabs.map (Slab.orphan s)
    looseJobs := r.looseJobs.map (Job.strike s c.gen true) }

/-- JOIN from a station, as a leave and an entry when it is a member already (R55). -/
def judgeJoin (c : Ctx) (s : Nat) (role : Role) (r : Replica) : Judged :=
  let r1 := if memberOf s r then r.leave c s else r
  takenAs { r1 with members := addMember { station := s, role := role } r1.members }

/-- GONE naming a station (R61). -/
def judgeGone (c : Ctx) (s : Nat) (r : Replica) : Judged :=
  if memberOf s r then takenAs (r.leave c s) else voidFor .notMember r

/-! ## The stock table -/

/-- Change the slab record of an id, settled or not. -/
def Replica.onSlab (i : SlabId) (f : Slab → Slab) (r : Replica) : Replica :=
  { r with
    slabs := Slots.update (fun x => x.id == i) f r.slabs
    looseSlabs := r.looseSlabs.map (fun x => if x.id == i then f x else x) }

/-- Remove the slab record of an id; its slot is emptied (R70). -/
def Replica.dropSlab (i : SlabId) (r : Replica) : Replica :=
  { r with
    slabs := r.slabs.filter (fun p => p.2.id != i), looseSlabs := r.looseSlabs.filter (fun x => x.id != i) }

/-- Insert a slab record into the lowest empty slot (R70); in a section still to come, one with no slot free at or
below the mark is held unsettled (R42); in a complete table, none is free when every slot is occupied. -/
def Replica.insertSlab (c : Ctx) (x : Slab) (r : Replica) : Option (Replica × Option Nat) :=
  match Slots.lowestFree c.slabLimit r.slabs with
  | some n => some ({ r with slabs := Slots.set n x r.slabs }, some n)
  | none => if c.slabDone then none else some ({ r with looseSlabs := r.looseSlabs ++ [x] }, none)

/-- A record becomes FREE with no holder. -/
def Slab.freed (x : Slab) : Slab := { x with state := .free, holder := none }

/-- SLAB_ADD of a record (R73). -/
def judgeSlabAdd (c : Ctx) (x : Slab) (r : Replica) : Judged :=
  if (r.slab? x.id).isSome then voidFor .idPresent r
  else
    match r.insertSlab c x with
    | none => voidFor .tableFull r
    | some (r1, slot) => { takenAs r1 with news := [x.id], slot := slot }

/-- CLAIM of a record (R75). -/
def judgeClaim (s : Nat) (i : SlabId) (r : Replica) : Judged :=
  match r.slab? i with
  | none => voidFor .condition r
  | some x =>
    if x.state = .free ∧ memberOf s r ∧ ¬ r.holds s then
      takenAs (r.onSlab i (fun y => { y with state := .claimed, holder := some s }))
    else voidFor .condition r

/-- RELEASE of a record (R77). -/
def judgeRelease (s : Nat) (i : SlabId) (r : Replica) : Judged :=
  match r.slab? i with
  | none => voidFor .condition r
  | some x =>
    if x.state = .claimed ∧ x.holder = some s then { takenAs (r.onSlab i Slab.freed) with news := [i] }
    else voidFor .condition r

/-- RECLAIM of a record (R79). -/
def judgeReclaim (s : Nat) (i : SlabId) (r : Replica) : Judged :=
  match r.slab? i with
  | none => voidFor .condition r
  | some x =>
    if x.state = .orphaned ∧ x.holder = some s ∧ memberOf s r then
      takenAs (r.onSlab i (fun y => { y with state := .claimed }))
    else voidFor .condition r

/-- FREE_ORPHAN of a record (R80). -/
def judgeFreeOrphan (i : SlabId) (r : Replica) : Judged :=
  match r.slab? i with
  | none => voidFor .condition r
  | some x =>
    if x.state = .orphaned then { takenAs (r.onSlab i Slab.freed) with news := [i] } else voidFor .condition r

/-- SCRAP of a record (R82). -/
def judgeScrap (i : SlabId) (r : Replica) : Judged :=
  match r.slab? i with
  | none => voidFor .condition r
  | some x => if x.state = .free then takenAs (r.dropSlab i) else voidFor .condition r

/-- The record a remnant of a parent makes (R84). -/
def remnantSlab (s : Nat) (parent : Slab) (m : Remnant) : Slab :=
  { id := { origin := s, serial := m.serial }, kind := .remnant, parent := some parent.id
    material := parent.material, thickness := parent.thickness, length := m.length, width := m.width
    rack := parent.rack, rate := parent.rate, state := .free, holder := none }

/-- The remnants in payload order (R84): each is recorded when its id is not held and a slot is there. The result
counts the recorded area, the unrecorded remnants and the ids that became FREE. -/
def recordRemnants (c : Ctx) (s : Nat) (parent : Slab) :
    List Remnant → Replica → Nat → Nat → List SlabId → Replica × Nat × Nat × List SlabId
  | [], r, area, lost, news => (r, area, lost, news)
  | m :: rest, r, area, lost, news =>
    let x := remnantSlab s parent m
    if (r.slab? x.id).isSome then recordRemnants c s parent rest r area (lost + 1) news
    else
      match r.insertSlab c x with
      | none => recordRemnants c s parent rest r area (lost + 1) news
      | some (r1, _) => recordRemnants c s parent rest r1 (area + m.length * m.width) lost (news ++ [x.id])

/-- CONSUME of a parent (R83, R84). -/
def judgeConsume (c : Ctx) (s : Nat) (i : SlabId) (abandoned : Bool) (total : Nat) (ms : List Remnant)
    (r : Replica) : Judged :=
  match r.slab? i with
  | none => voidFor .condition r
  | some x =>
    if x.state = .claimed ∧ x.holder = some s ∧
        total + (ms.map (fun m => m.length * m.width)).sum ≤ x.length * x.width then
      match recordRemnants c s x ms (r.dropSlab i) 0 0 [] with
      | (r1, area, lost, news) =>
        { takenAs r1 with
          news := news
          figures := some
            { parent := i, area := x.length * x.width, rate := x.rate, abandoned := abandoned, pieceTotal := total
              recorded := area, unrecorded := lost } }
    else voidFor .condition r

/-! ## The job table -/

/-- A new OPEN record (R166). -/
def freshJob (n s : Nat) : Job :=
  { number := n, state := .opened, opener := s, closer := none, pending := [], short := false, closing := none
    tally := Tally.zero }

/-- Change the job record of a number, settled or not. -/
def Replica.onJob (n : Nat) (f : Job → Job) (r : Replica) : Replica :=
  { r with
    jobs := Slots.update (fun x => x.number == n) f r.jobs
    looseJobs := r.looseJobs.map (fun x => if x.number == n then f x else x) }

/-- How far a CLOSED record's closing generation lies behind a generation (R165). A CLOSED record that a snapshot brought
with no closing generation (log 44) has no distance in R165: it counts as 0, the newest. DESIGN CHOICE, log 46. -/
def Job.age (gen : Word16) (x : Job) : Nat :=
  match x.closing with
  | some g => (gen - g).toNat
  | none => 0

/-- The slot of the oldest CLOSED record, the lowest among equals (R165). -/
def oldestClosed (gen : Word16) : Slots Job → Option (Nat × Nat)
  | [] => none
  | (slot, x) :: rest =>
    match oldestClosed gen rest with
    | none => if x.state = .closed then some (slot, x.age gen) else none
    | some (s2, a2) => if x.state = .closed ∧ a2 ≤ x.age gen then some (slot, x.age gen) else some (s2, a2)

/-- JOB_OPEN n from a station (R166); in a section still to come, an insertion with no slot free at or below the mark
is held unsettled (R42). -/
def judgeJobOpen (c : Ctx) (s n : Nat) (r : Replica) : Judged :=
  match r.job? n with
  | some x => if x.state = .closed then takenAs (r.onJob n (fun _ => freshJob n s)) else voidFor .active r
  | none =>
    match Slots.lowestFree c.jobLimit r.jobs with
    | some slot => takenAs { r with jobs := Slots.set slot (freshJob n s) r.jobs }
    | none =>
      if c.jobDone then
        match oldestClosed c.gen r.jobs with
        | some (slot, _) => takenAs { r with jobs := Slots.set slot (freshJob n s) r.jobs }
        | none => voidFor .tableFull r
      else takenAs { r with looseJobs := r.looseJobs ++ [freshJob n s] }

/-- The stations of the member set whose role is CUTTER (R167). -/
def cutters (r : Replica) : List Nat := (r.members.filter (fun m => m.role == .cutter)).map (·.station)

/-- An OPEN job becomes CLOSING with a pending set, or CLOSED at once when it is empty (R167). -/
def Job.close (s : Nat) (pending : List Nat) (gen : Word16) (x : Job) : Job :=
  { x with
    state := if pending.isEmpty then .closed else .closing, closer := some s, pending := pending
    tally := Tally.zero, closing := if pending.isEmpty then some gen else none }

/-- JOB_CLOSE n from a station (R167). -/
def judgeJobClose (c : Ctx) (s n : Nat) (r : Replica) : Judged :=
  if jobOpenIn n r then takenAs (r.onJob n (Job.close s (cutters r) c.gen)) else voidFor .notOpen r

/-- COST_REPORT of n from a station (R168). -/
def judgeCostReport (c : Ctx) (s n : Nat) (sums : Tally) (r : Replica) : Judged :=
  match r.job? n with
  | none => voidFor .condition r
  | some x =>
    if x.state = .closing ∧ s ∈ x.pending then
      takenAs (r.onJob n (fun y => ({ y with tally := y.tally.add sums }).strike s c.gen false))
    else voidFor .condition r

/-! ## The judgment -/

/-- A SHEET record of a SLAB_ADD (R73). -/
def sheetSlab (s serial material thickness length width rack rate : Nat) : Slab :=
  { id := { origin := s, serial := serial }, kind := .sheet, parent := none, material := material
    thickness := thickness, length := length, width := width, rack := rack, rate := rate, state := .free
    holder := none }

/-- A change frame judged against a replica and applied whole, taken or void (R26). -/
def judge (c : Ctx) (s : Nat) (ch : Change) (r : Replica) : Judged :=
  match ch with
  | .budget value => judgeBudget s value r
  | .flowAsk asked => judgeFlowAsk s asked r
  | .flowDrop => judgeFlowDrop s r
  | .join role => judgeJoin c s role r
  | .gone station => judgeGone c station r
  | .slabAdd serial material thickness length width rack rate =>
    judgeSlabAdd c (sheetSlab s serial material thickness length width rack rate) r
  | .claim i => judgeClaim s i r
  | .release i => judgeRelease s i r
  | .reclaim i => judgeReclaim s i r
  | .consume i abandoned total ms => judgeConsume c s i abandoned total ms r
  | .scrap i => judgeScrap i r
  | .freeOrphan i => judgeFreeOrphan i r
  | .jobOpen n => judgeJobOpen c s n r
  | .jobClose n => judgeJobClose c s n r
  | .costReport n sums => judgeCostReport c s n sums r

/-- The judgment of a payload: void when the payload step fails (R72, R197). -/
def judgeFrame (c : Ctx) (s : Nat) (k : Kind) (payload : List Byte) (r : Replica) : Judged :=
  match parseChange k payload with
  | none => voidFor .payload r
  | some ch => judge c s ch r

/-- Whether a change touches the member set (R36, R41). -/
def Change.touchesMembers : Change → Bool
  | .join _ | .gone _ => true
  | .budget _ | .flowAsk _ | .flowDrop | .slabAdd .. | .claim _ | .release _ | .reclaim _ | .consume .. | .scrap _
  | .freeOrphan _ | .jobOpen _ | .jobClose _ | .costReport .. => false

/-- Whether a change from a station touches the flow ledger of a replica (R36, R41): BUDGET, FLOW_ASK, FLOW_DROP and
GONE do, and JOIN in its leave-and-enter form. -/
def Change.touchesLedger (s : Nat) (r : Replica) : Change → Bool
  | .budget _ | .flowAsk _ | .flowDrop | .gone _ => true
  | .join _ => memberOf s r
  | .slabAdd .. | .claim _ | .release _ | .reclaim _ | .consume .. | .scrap _
  | .freeOrphan _ | .jobOpen _ | .jobClose _ | .costReport .. => false

end Sys2Proof.Machine
end

