-- ==== Sys2Proof/Machine/Build.lean ====
section
/-! DEFINITION. The replica's own moves (02): taking a change frame as a CURRENT or a BUILDING replica, a build from
its first SNAP to END or to its abandonment, a break, and the emptying of R48. -/

namespace Sys2Proof.Machine

/-- The context a build judges in: the sections complete and the stream marks (R42). -/
def Build.ctx (gen : Word16) (x : Build) : Ctx :=
  { slabLimit := if 3 < x.reached then 160 else match x.slabMark with | none => 0 | some m => m + 1
    slabDone := 3 < x.reached
    jobLimit := if 4 < x.reached then 48 else match x.jobMark with | none => 0 | some m => m + 1
    jobDone := 4 < x.reached
    ledgerDone := 2 < x.reached
    gen := gen }

/-- The replica set aside returns, with its state and generation (R45). -/
def Shop.abandoned (sh : Shop) : Shop :=
  match sh.build with
  | none => sh
  | some x => { state := x.asideState, gen := x.asideGen, rep := x.aside, build := none }

/-- Whether a change frame arrives while a section it touches is in progress (R41), as far as the member section, once
complete, and the plant that LEDGER_HEAD named do not already show the frame void (log 13). -/
def Build.inProgressHit (x : Build) (r : Replica) (s : Nat) (ch : Change) : Bool :=
  (x.reached == 1 && ch.touchesMembers) ||
    (x.reached == 2 &&
      match ch with
      | .budget _ => roleOf s r == some .plant && (r.ledger.plant.isNone || r.ledger.plant == some s)
      | .flowAsk _ | .flowDrop | .join _ => memberOf s r
      | .gone station => memberOf station r
      | .slabAdd .. | .claim _ | .release _ | .reclaim _ | .consume .. | .scrap _ | .freeOrphan _ | .jobOpen _
      | .jobClose _ | .costReport .. => false)

/-- Whether a change frame's outcome depends on records the partial table cannot yet know (R43). -/
def Build.unknowable (x : Build) (r : Replica) (c : Ctx) (s : Nat) (ch : Change) : Bool :=
  match ch with
  | .claim i =>
    !c.slabDone &&
      match r.slab? i with
      | some y => y.state == .free && memberOf s r && !r.holds s
      | none => false
  | .consume i _ _ _ => !c.slabDone && (r.slab? i).isNone && (Slots.lowestFree c.slabLimit r.slabs).isSome
  | .jobOpen n =>
    !c.jobDone && (r.job? n).isNone && (Slots.lowestFree c.jobLimit r.jobs).isNone &&
      r.allJobs.any (fun j => j.state == .closed) && x.reached ≤ 4
  | .budget _ | .flowAsk _ | .flowDrop | .join _ | .gone _ | .slabAdd .. | .release _ | .reclaim _ | .scrap _
  | .freeOrphan _ | .jobClose _ | .costReport .. => false

/-- Whether a change touches a ledger section not yet begun, and nothing else: it is ignored (R41). -/
def Build.ledgerToCome (x : Build) (ch : Change) : Bool :=
  x.reached ≤ 1 &&
    match ch with
    | .budget _ | .flowAsk _ | .flowDrop => true
    | .join _ | .gone _ | .slabAdd .. | .claim _ | .release _ | .reclaim _ | .consume .. | .scrap _ | .freeOrphan _
    | .jobOpen _ | .jobClose _ | .costReport .. => false

/-- What a change frame does to a build (R40 to R43): the shop after it, or none when the build is abandoned. -/
def Shop.buildChange (s : Nat) (k : Kind) (gen : Word16) (payload : List Byte) (x : Build) (sh : Shop) :
    Option Shop :=
  if gen ≠ x.expGen + 1 then none
  else
    let sh1 := { sh with build := some { x with expGen := gen } }
    match parseChange k payload with
    | none => some sh1
    | some ch =>
      let c := x.ctx gen
      if x.inProgressHit sh.rep s ch || x.unknowable sh.rep c s ch then none
      else if x.ledgerToCome ch then some sh1
      else some { sh1 with rep := (judge c s ch sh.rep).rep }

/-- A record goes into the partial replica (R39, R40, R42). -/
def Replica.put (rec : Record) (r : Replica) : Replica :=
  match rec with
  | .member m => { r with members := addMember m r.members }
  | .head budget plant => { r with ledger := { r.ledger with budget := budget, plant := plant } }
  | .entry e => { r with ledger := { r.ledger with entries := (r.ledger.without e.station).entries ++ [e] } }
  | .slab slot x =>
    let r1 := r.dropSlab x.id
    { r1 with slabs := Slots.set slot x r1.slabs }
  | .job slot x =>
    { r with
      jobs := Slots.set slot x (r.jobs.filter (fun p => p.2.number != x.number))
      looseJobs := r.looseJobs.filter (fun y => y.number != x.number) }
  | .fin _ _ _ _ => r

/-- The bookkeeping after a record: its section is the furthest begun, and a SLAB or JOB moves its stream mark (R42). -/
def Build.advance (rec : Record) (x : Build) : Build :=
  { x with
    expSeq := x.expSeq + 1, reached := rec.section
    slabMark := match rec with | .slab slot _ => some slot | .member _ | .head .. | .entry _ | .job .. | .fin .. => x.slabMark
    jobMark := match rec with | .job slot _ => some slot | .member _ | .head .. | .entry _ | .slab .. | .fin .. => x.jobMark }

/-- What a SNAP addressed to the station comes to (R31, R39, R40, R44). -/
inductive SnapResult where
  | ignored
  | restartAsk
  | begun (sh : Shop)
  | fed (sh : Shop)
  | abandoned (sh : Shop)
  | completed (sh : Shop)
  | rebuilt (sh : Shop)
  deriving DecidableEq, Repr

/-- END: the unsettled records go, the counts are compared, and the partial replica becomes the replica at the
expected generation, or the build is abandoned (R44). -/
def Shop.finish (members entries slabs jobs : Nat) (x : Build) (sh : Shop) : SnapResult :=
  let r := { sh.rep with looseSlabs := [], looseJobs := [] }
  if r.members.length = members ∧ r.ledger.entries.length = entries ∧ r.slabs.length = slabs ∧
      r.jobs.length = jobs then
    .completed { state := .current, gen := x.expGen, rep := r, build := none }
  else .abandoned sh.abandoned

/-- A record is put in, and END completes the build (R40, R44). -/
def Shop.feed (rec : Record) (x : Build) (sh : Shop) : SnapResult :=
  match rec with
  | .fin members entries slabs jobs => sh.finish members entries slabs jobs x
  | .member _ | .head .. | .entry _ | .slab .. | .job .. =>
    .fed { sh with rep := sh.rep.put rec, build := some (x.advance rec) }

/-- A build begins from a first SNAP: the replica is set aside with its state and generation, and an empty partial
replica takes the record (R39). -/
def Shop.begin_ (sender : Nat) (gen : Word16) (rec : Record) (sh : Shop) : SnapResult :=
  let x : Build :=
    { server := sender, expGen := gen, expSeq := 0, reached := 0, slabMark := none, jobMark := none
      aside := sh.rep, asideState := sh.state, asideGen := sh.gen }
  match Shop.feed rec x { state := .building, gen := sh.gen, rep := Replica.blank, build := some x } with
  | .fed sh1 => .begun sh1
  | other => other

/-- A SNAP addressed to the station is taken (R31, R40, R198). -/
def Shop.onSnap (sender : Nat) (gen : Word16) (payload : List Byte) (sh : Shop) : SnapResult :=
  match sh.state with
  | .current => .ignored
  | .empty | .stale =>
    match snapSeq payload, snapRecord payload with
    | some 0, some rec => sh.begin_ sender gen rec
    | _, _ => .restartAsk
  | .building =>
    match sh.build with
    | none => .ignored
    | some x =>
      if sender = x.server then
        match snapRecord payload with
        | some rec =>
          if gen = x.expGen ∧ snapSeq payload = some x.expSeq ∧ x.reached ≤ rec.section then sh.feed rec x
          else .abandoned sh.abandoned
        | none => .abandoned sh.abandoned
      else if snapSeq payload = some 0 ∧ sender < x.server then
        match snapRecord payload with
        | some rec =>
          match sh.abandoned.begin_ sender gen rec with
          | .begun sh1 => .rebuilt sh1
          | other => other
        | none => .abandoned sh.abandoned
      else .ignored

/-- A break at the ledger of each replica state (R94, R41); none when it abandons a build. -/
def Shop.onBreak (sh : Shop) : Option Shop :=
  match sh.build with
  | none => some { sh with rep := { sh.rep with ledger := sh.rep.ledger.drained } }
  | some x =>
    let x1 := { x with aside := { x.aside with ledger := x.aside.ledger.drained } }
    if x.reached = 2 then none
    else if 2 < x.reached then
      some { sh with build := some x1, rep := { sh.rep with ledger := sh.rep.ledger.drained } }
    else some { sh with build := some x1 }

/-- The replica set aside with the break applied, which an abandoned build returns (R94). -/
def Shop.brokenAside (sh : Shop) : Shop :=
  let sh1 := sh.abandoned
  { sh1 with rep := { sh1.rep with ledger := sh1.rep.ledger.drained } }

/-- The table unit's replica after full reset and after REJOIN (R48). -/
def Shop.emptied : Shop := { state := .empty, gen := 0, rep := Replica.blank, build := none }

end Sys2Proof.Machine
end

