-- ==== Sys2Proof/Machine/Stream.lean ====
section
/-! DEFINITION. The table unit's own frames: the outgoing snapshot stream (2.3) and the asking of a station whose
replica is not CURRENT (2.2). -/

namespace Sys2Proof.Machine

/-! ## The record a position names -/

/-- END with its four counts (R33). -/
def Replica.finRecord (r : Replica) : Record :=
  .fin r.members.length r.ledger.entries.length r.slabs.length r.jobs.length

/-- Job position t: the occupied slot lowest at or above it; when there is none, END (R33). -/
def Replica.atJob (t : Nat) (r : Replica) : Pos × Record :=
  match Slots.atOrAbove t r.jobs with
  | some (slot, x) => (.job slot, .job slot x)
  | none => (.fin, r.finRecord)

/-- Slab position s: the occupied slot lowest at or above it; when there is none, job position 0 (R33). -/
def Replica.atSlab (s : Nat) (r : Replica) : Pos × Record :=
  match Slots.atOrAbove s r.slabs with
  | some (slot, x) => (.slab slot, .slab slot x)
  | none => r.atJob 0

/-- Entry position j; when there is none, slab position 0 (R33). -/
def Replica.atEntry (j : Nat) (r : Replica) : Pos × Record :=
  match r.ledger.entries[j]? with
  | some e => (.entry j, .entry e)
  | none => r.atSlab 0

/-- LEDGER_HEAD (R33). -/
def Replica.atHead (r : Replica) : Pos × Record := (.head, .head r.ledger.budget r.ledger.plant)

/-- Member position i: the member with the i-th lowest station number; when there is none, LEDGER_HEAD (R33). -/
def Replica.atMember (i : Nat) (r : Replica) : Pos × Record :=
  match r.members[i]? with
  | some m => (.member i, .member m)
  | none => r.atHead

/-- The record a stream position names, with the position it is found at (R33). -/
def Replica.recordAt (p : Pos) (r : Replica) : Pos × Record :=
  match p with
  | .member i => r.atMember i
  | .head => r.atHead
  | .entry j => r.atEntry j
  | .slab s => r.atSlab s
  | .job t => r.atJob t
  | .fin => (.fin, r.finRecord)

/-- The position past a record that has been sent (R35). -/
def Pos.past : Pos → Pos
  | .member i => .member (i + 1)
  | .head => .entry 0
  | .entry j => .entry (j + 1)
  | .slab s => .slab (s + 1)
  | .job t => .job (t + 1)
  | .fin => .fin

/-- The section a position lies in, 1 to 5 in stream order (R33). -/
def Pos.section : Pos → Nat
  | .member _ => 1
  | .head | .entry _ => 2
  | .slab _ => 3
  | .job _ => 4
  | .fin => 5

/-! ## The outgoing stream -/

/-- The table unit's bookkeeping is changed. -/
def Blocks.onAsking (f : Asking → Asking) (b : Blocks) : Blocks := { b with asking := f b.asking }

/-- The stream is set. -/
def Blocks.setStream (x : Option Stream) (b : Blocks) : Blocks := b.onAsking (fun a => { a with stream := x })

/-- A SNAP frame. -/
def isSnap (f : Frame) : Bool := f.kind == .snap

/-- The stream's next SNAP is offered, its record read from the replica at this moment (R34). -/
def Blocks.offerSnap (sh : Shop) (b : Blocks) : Blocks :=
  match b.asking.stream with
  | none => b
  | some x =>
    let found := sh.rep.recordAt x.pos
    let payload := snapPayload x.seq found.2
    (b.setStream (some { x with carried := found.1, sent := payload })).offer .table
      { kind := .snap, target := x.asker, payload := payload }

/-- A new stream to an asker (R32). -/
def Stream.fresh (asker : Nat) : Stream :=
  { asker := asker, pos := .member 0, seq := 0, lastDone := 0, carried := .member 0, sent := [] }

/-- A stream is started, and its first SNAP offered (R32). -/
def Blocks.startStream (sh : Shop) (asker : Nat) (b : Blocks) : Blocks :=
  (b.setStream (some (Stream.fresh asker))).offerSnap sh

/-- A SNAP that waits is withdrawn and offered afresh at the same position and sequence number (R34). -/
def Blocks.refreshStream (sh : Shop) (b : Blocks) : Blocks :=
  if b.asking.stream.isSome && b.line.heldWaiting .table isSnap then (b.withdraw .table isSnap).offerSnap sh else b

/-- The stream goes back to its start (R36). -/
def Blocks.restartStream (sh : Shop) (b : Blocks) : Blocks :=
  match b.asking.stream with
  | none => b
  | some x => (b.withdraw .table isSnap).startStream sh x.asker

/-- The stream is dropped: its SNAP is withdrawn and the stream cleared (R38). -/
def Blocks.dropStream (b : Blocks) : Blocks :=
  match b.asking.stream with
  | none => b
  | some _ => (b.withdraw .table isSnap).setStream none

/-- The stream's SNAP has completed: the position moves past its record and the next SNAP is offered; END ends the
stream (R35). A SNAP of a stream that has been dropped moves nothing (R38). -/
def Blocks.snapCompleted (sh : Shop) (f : Frame) (b : Blocks) : Blocks :=
  match b.asking.stream with
  | none => b
  | some x =>
    if f.target = x.asker ∧ f.payload = x.sent then
      if x.carried = .fin then b.setStream none
      else
        (b.setStream
          (some { x with pos := x.carried.past, seq := x.seq + 1, lastDone := x.carried.section })).offerSnap sh
    else b

/-- What a change frame does to the stream: a restart when it touches the section in progress, else a refresh of the
SNAP that waits (R34, R36). -/
def Blocks.streamAfter (members ledger : Bool) (sh : Shop) (b : Blocks) : Blocks :=
  match b.asking.stream with
  | none => b
  | some x =>
    if (members && x.lastDone == 1) || (ledger && x.lastDone == 2) then b.restartStream sh else b.refreshStream sh

/-- Another station's SNAP to the asker this station serves: a lower sender keeps the asker (R37). -/
def Blocks.rivalSnap (sender asker : Nat) (b : Blocks) : Blocks :=
  match b.asking.stream with
  | none => b
  | some x => if x.asker = asker ∧ sender < b.pres.station then b.dropStream else b

/-! ## Asking -/

/-- A SYNC_ASK frame. -/
def isSyncAsk (f : Frame) : Bool := f.kind == .syncAsk

/-- A REBASE frame. -/
def isRebase (f : Frame) : Bool := f.kind == .rebase

/-- The ask timer is set or stopped (R30). -/
def Blocks.setAskT (t : Option Nat) (b : Blocks) : Blocks := { b with pres := { b.pres with askT := t } }

/-- The ask timer is started afresh (R30, R31, R39, R40). In MUTE it is not: R48 stops it for a build that runs at the entry
into MUTE, and leaves open whether it runs for a build that begins in MUTE (R39, R40) or after a SNAP from the middle of a
stream taken there (R31); the model starts it for neither. DESIGN CHOICE, log 52. -/
def Blocks.restartAskT (b : Blocks) : Blocks := if b.pres.mem = .mute then b else b.setAskT (b.after 1000)

/-- Whether the membership state lets a frame start, a stream begin or the table unit ask: not INERT, not MUTE, and not in
the listen window, in which the station sends nothing (R16, R30, R48, R51, R52). -/
def Membership.sends : Membership → Bool
  | .inert | .mute | .outside .listen => false
  | .outside .asking | .outside .building | .joining | .member => true

/-- The station asks: it offers SYNC_ASK, unless one of its own is WAITING (R30). Of one that stands on the wait list or in
the backlog, behind a full queue, R30 does not speak; the model lets it stand for the ask too. DESIGN CHOICE, log 49. -/
def Blocks.ask (sh : Shop) (b : Blocks) : Blocks :=
  if b.pres.mem.sends && !sh.current then
    let b1 := (b.setAskT none).onAsking (fun a => { a with answered := false })
    if b1.line.heldWaiting .table isSyncAsk then b1 else b1.offer .table (mkFrame .syncAsk [])
  else b

/-- The unanswered-ask count and the SYNC_FAILED flag go back (R30). -/
def Blocks.clearAsks (b : Blocks) : Blocks := b.onAsking (fun a => { a with count := 0, failed := false })

/-- A SNAP has been heard at this moment (R31). -/
def Blocks.snapHeardNow (b : Blocks) : Blocks := b.onAsking (fun a => { a with snapHeard := some b.now })

/-- A time lies within the last 3.0 s (R46, log 25). -/
def Blocks.recent (t : Nat) (b : Blocks) : Bool := b.now ≤ t + 3000

/-- Whether the station qualifies for REBASE (R46). -/
def Blocks.qualifies (b : Blocks) : Bool :=
  (match b.asking.snapHeard with
    | none => true
    | some t => !b.recent t) &&
  b.asking.askHeard.all (fun p => p.1 == b.pres.station || !b.recent p.2 || b.pres.station < p.1)

/-- Its own REBASE is withdrawn, and again when a refused withdrawal's attempt fails (R46). -/
def Blocks.withdrawRebase (b : Blocks) : Blocks := { b with line := b.line.withdraw .table isRebase true }

end Sys2Proof.Machine
end

