-- ==== Sys2Proof/Machine/CostUnit.lean ====
section
/-! DEFINITION. The cost unit (9.2 to 9.4): cost lines and the planner's requests on them, the charges, the reports and
the zero reports. Where a line leaves the table, the caller tells the planner that a line has freed (R173). -/

namespace Sys2Proof.Machine

/-! ## Lines -/

/-- The cost unit's state is changed. -/
def Blocks.onCost (f : CostUnit → CostUnit) (b : Blocks) : Blocks := { b with cost := f b.cost }

/-- A line is live while it is ACCRUING or DUE (R172). -/
def CostLine.live (x : CostLine) : Bool := x.state == .accruing || x.state == .due

/-- The live line of a job, with its slot (R172); of two, the one in the lower slot (log 43). -/
def CostUnit.liveLine (job : Nat) (c : CostUnit) : Option (Nat × CostLine) :=
  c.lines.find? (fun p => p.2.live && p.2.job == job)

/-- The planner finds a live line of the job, or room for another (R126). -/
def CostUnit.canReserve (job : Nat) (c : CostUnit) : Bool := (c.liveLine job).isSome || c.lines.length < 24

/-- A new line: ACCRUING, with a tally of 0 (R172). -/
def CostLine.fresh (job : Nat) : CostLine := { job := job, tally := Tally.zero, openCount := 0, state := .accruing }

/-- The live line of a job is changed. R172 has at most one; when a discarded report makes a SENT line DUE again beside a
newer line of the reopened job (R178), both are kept and both are changed. DESIGN CHOICE, log 43. -/
def CostUnit.mapLive (job : Nat) (f : CostLine → CostLine) (c : CostUnit) : CostUnit :=
  { c with lines := Slots.update (fun x => x.live && x.job == job) f c.lines }

/-- Reserve: the live line serves, or a new line takes the lowest empty slot (R173). -/
def CostUnit.reserve (job : Nat) (c : CostUnit) : CostUnit :=
  if (c.liveLine job).isSome then c
  else
    match Slots.lowestFree 24 c.lines with
    | some slot => { c with lines := Slots.set slot (CostLine.fresh job) c.lines }
    | none => c

/-- Placement joined: the open-placement count rises; index 1 makes the plan's first job and its hold (R173). A job with no
live line raises no count and makes no first job. DESIGN CHOICE, log 53. -/
def CostUnit.joined (job index : Nat) (c : CostUnit) : CostUnit :=
  let c1 := c.mapLive job (fun x => { x with openCount := x.openCount + 1 })
  if index = 1 then { c1 with first := (c1.liveLine job).map (fun p => (job, p.1)) } else c1

/-- Placement left, or settled with its charges made: the count falls (R173). -/
def CostUnit.lowered (job : Nat) (c : CostUnit) : CostUnit :=
  c.mapLive job (fun x => { x with openCount := x.openCount - 1 })

/-- Whether a release empties the job's live line: no charges, and a count of 0 (R173). -/
def CostUnit.releasable (job : Nat) (c : CostUnit) : Option Nat :=
  match c.liveLine job with
  | some (slot, x) => if !x.tally.charged && x.openCount == 0 then some slot else none
  | none => none

/-- Release (R173). -/
def CostUnit.release (job : Nat) (c : CostUnit) : CostUnit :=
  match c.releasable job with
  | some slot => { c with lines := Slots.erase slot c.lines }
  | none => c

/-- The first-job hold is set on a slot (R173). -/
def CostUnit.holdOn (slot : Nat) (c : CostUnit) : Bool :=
  match c.first with
  | some (_, s) => s == slot
  | none => false

/-! ## Charges -/

/-- Sums are added to the live line of a job. -/
def CostUnit.charge (job : Nat) (t : Tally) (c : CostUnit) : CostUnit :=
  c.mapLive job (fun x => { x with tally := x.tally.add t })

/-- The cut face of a completed cut (R175). -/
def CostUnit.chargeFace (job area : Nat) (c : CostUnit) : CostUnit := c.charge job { Tally.zero with face := area }

/-- One blade second, and the water that passes in it (R174). -/
def CostUnit.chargeSecond (job flow : Nat) (c : CostUnit) : CostUnit :=
  c.charge job { Tally.zero with blade := 1, water := flow }

/-- The area of a job's cut pieces. -/
def areaOf (job : Nat) (l : List Settlement) : Nat := ((l.filter (fun x => x.job == job)).map (·.area)).sum

/-- The number of a job's cut pieces. -/
def countOf (job : Nat) (l : List Settlement) : Nat := (l.filter (fun x => x.job == job)).length

/-- The jobs that have cut pieces, each once. -/
def jobsOf (l : List Settlement) : List Nat := (l.map (·.job)).eraseDups

/-- A job's share of the waste before the remainder is given out, rounded down (R176). -/
def wasteShare (waste total area : Nat) : Nat := waste * area / total

/-- The waste of a CONSUME (R176, R85). -/
def Figures.waste (f : Figures) : Nat := f.area - f.pieceTotal - f.recorded

/-- The share of each job that receives stone or waste: its own, and the remainder for the plan's first job; with no
cut piece all of the waste is the first job's (R176). -/
def wasteShares (f : Figures) (l : List Settlement) (first : Option Nat) : List (Nat × Nat) :=
  let own := (jobsOf l).map (fun j => (j, wasteShare f.waste f.pieceTotal (areaOf j l)))
  let rest := f.waste - (own.map (·.2)).sum
  match first with
  | none => own
  | some j =>
    if own.any (fun p => p.1 == j) then own.map (fun p => if p.1 = j then (j, p.2 + rest) else p)
    else if rest = 0 then own
    else own ++ [(j, rest)]

/-- The stone charge of one job (R176). -/
def stoneTally (f : Figures) (l : List Settlement) (job share : Nat) : Tally :=
  { Tally.zero with
    stone := areaOf job l, waste := share, pieces := countOf job l
    cost := (areaOf job l + share) * f.rate / 1000000 }

/-- The stone charges, and then the fall of the open-placement counts (R176). -/
def CostUnit.stoneCharge (f : Figures) (l : List Settlement) (c : CostUnit) : CostUnit :=
  let shares := wasteShares f l (c.first.map (·.1))
  let c1 := shares.foldl (fun x p => x.charge p.1 (stoneTally f l p.1 p.2)) c
  l.foldl (fun x s => x.lowered s.job) { c1 with figures := none, settled := none }

/-- The CONSUME figures arrive; the charges are made when the settlement is in (R176). -/
def CostUnit.takeFigures (f : Figures) (c : CostUnit) : CostUnit :=
  match c.settled with
  | some l => c.stoneCharge f l
  | none => { c with figures := some f }

/-- The settlement arrives; the charges are made when the figures are in (R176). -/
def CostUnit.takeSettlement (l : List Settlement) (c : CostUnit) : CostUnit :=
  match c.figures with
  | some f => c.stoneCharge f l
  | none => { c with settled := some l }

/-- The CONSUME is void: the figures and any settlement held are discarded (R176). -/
def CostUnit.consumeVoid (c : CostUnit) : CostUnit := { c with figures := none, settled := none }

/-! ## Reports -/

/-- The COST_REPORT payload (R197). -/
def reportPayload (job : Nat) (t : Tally) : List Byte := bytes2 job ++ t.bytes

/-- The line of a slot may report (R178). -/
def CostUnit.mayReport (slot : Nat) (x : CostLine) (c : CostUnit) : Bool :=
  x.state == .due && x.openCount == 0 && !c.holdOn slot &&
    !c.reports.any (fun r => match r with | .line s _ => s == slot | .zero _ => false)

/-- The COST_REPORT of a line. -/
def reportFrame (slot : Nat) (x : CostLine) : Frame :=
  { mkFrame .costReport (reportPayload x.job x.tally) with line := some slot }

/-- A DUE line's COST_REPORT is offered, and the line becomes SENT (R178). -/
def Blocks.reportLine (slot : Nat) (x : CostLine) (b : Blocks) : Blocks :=
  (b.onCost (fun c =>
    { c with lines := Slots.set slot { x with state := .sent } c.lines, reports := c.reports ++ [.line slot x.job] })).offer
    .cost (reportFrame slot x)

/-- The report check of R178 on every line; in MUTE a DUE line stays DUE. Reports offered at one moment join the queue by
cost slot, and before the zero reports: the rules give no order. DESIGN CHOICE, log 42. -/
def Blocks.reportChecks (sh : Shop) (b : Blocks) : Blocks :=
  if sh.current && b.pres.mem.offers then
    b.cost.lines.foldl (fun x p => if x.cost.mayReport p.1 p.2 then x.reportLine p.1 p.2 else x) b
  else b

/-- A job that has left OPEN in the replica, or that it does not hold (R177). -/
def leftOpen (r : Replica) (n : Nat) : Bool := !jobOpenIn n r

/-- ACCRUING lines of the jobs that a test picks become DUE (R177). -/
def CostUnit.dueFor (left : Nat → Bool) (c : CostUnit) : CostUnit :=
  { c with lines := Slots.update (fun x => x.state == .accruing && left x.job) (fun x => { x with state := .due }) c.lines }

/-- The station stands in the pending set of a CLOSING job. -/
def pendingIn (station n : Nat) (r : Replica) : Bool :=
  match r.job? n with
  | some x => x.state == .closing && x.pending.contains station
  | none => false

/-- A zero report of a job is held (R179). -/
def CostUnit.zeroHeld (n : Nat) (c : CostUnit) : Bool :=
  c.reports.any (fun r => match r with | .zero m => m == n | .line _ _ => false)

/-- The zero-report check of one job (R179). -/
def Blocks.zeroCheck (sh : Shop) (n : Nat) (b : Blocks) : Blocks :=
  if sh.current && b.pres.mem.offers && b.pres.role == .cutter && pendingIn b.pres.station n sh.rep &&
      !b.cost.lines.any (fun p => p.2.job == n && (p.2.live || p.2.state == .sent)) && !b.cost.zeroHeld n then
    (b.onCost (fun c => { c with reports := c.reports ++ [.zero n] })).offer .cost
      (mkFrame .costReport (reportPayload n Tally.zero))
  else b

/-- The zero-report check of every job, by job slot (R179; log 42). -/
def Blocks.zeroChecks (sh : Shop) (b : Blocks) : Blocks :=
  (sh.rep.jobs.map (·.2.number)).foldl (fun x n => x.zeroCheck sh n) b

/-- The zero report of a job, as a frame; the report of a line is none, whatever its sums (R179). -/
def isZeroReport (n : Nat) (f : Frame) : Bool :=
  f.kind == .costReport && f.payload == reportPayload n Tally.zero && f.line.isNone

/-- The station has left the pending set of a job: its zero report is withdrawn (R179). -/
def Blocks.withdrawZero (n : Nat) (b : Blocks) : Blocks :=
  if b.cost.zeroHeld n then
    let answer := b.line.withdrawAnswer .cost (isZeroReport n)
    let b1 := b.withdraw .cost (isZeroReport n)
    if answer.withdrawn then b1.onCost (fun c => { c with reports := c.reports.erase (.zero n) }) else b1
  else b

/-- The job of a report. -/
def Report.job : Report → Nat
  | .line _ n => n
  | .zero n => n

/-- The earliest held report of a job (log 19). -/
def CostUnit.reportOf (n : Nat) (c : CostUnit) : Option Report := c.reports.find? (fun r => r.job == n)

/-- The outcome of an own COST_REPORT (R180, R179). -/
def Blocks.reportOutcome (n : Nat) (taken : Bool) (gen : Word16) (b : Blocks) : Blocks :=
  match b.cost.reportOf n with
  | none => b
  | some (.zero m) => b.onCost (fun c => { c with reports := c.reports.erase (.zero m) })
  | some (.line slot m) =>
    if taken then
      b.onCost (fun c => { c with reports := c.reports.erase (.line slot m), lines := Slots.erase slot c.lines })
    else
      (b.onCost (fun c =>
        { c with
          reports := c.reports.erase (.line slot m)
          lines := c.lines.map (fun p => if p.1 = slot then (p.1, { p.2 with state := .refused }) else p) })).post
        (.reportRefused slot m gen)

/-- A COST_REPORT is DISCARDED: its line returns to DUE, or the record of a zero report is cleared (R178, R179). -/
def CostUnit.reportDiscarded (n : Nat) (c : CostUnit) : CostUnit :=
  match c.reportOf n with
  | none => c
  | some (.zero m) => { c with reports := c.reports.erase (.zero m) }
  | some (.line slot m) =>
    { c with
      reports := c.reports.erase (.line slot m)
      lines := c.lines.map (fun p => if p.1 = slot then (p.1, { p.2 with state := .due }) else p) }

/-- The plan has ended: the hold is cleared and the first job forgotten, and the report check runs (R173). -/
def Blocks.costPlanEnded (sh : Shop) (b : Blocks) : Blocks :=
  (b.onCost (fun c => { c with first := none })).reportChecks sh

/-! ## The job table's news -/

/-- A job has become CLOSING or CLOSED between two replicas (R177). -/
def leftBetween (before after : Replica) (n : Nat) : Bool :=
  match after.job? n with
  | some x => x.state != .opened && (before.job? n).map (·.state) != some x.state
  | none => false

/-- The jobs that have become CLOSED between two replicas, with this station as closer (R170). -/
def closedBetween (before after : Replica) (station : Nat) : List Job :=
  (after.jobs.map (·.2)).filter (fun x =>
    x.state == .closed && x.closer == some station &&
      (match before.job? x.number with | some y => y.state != .closed | none => false))

/-- TALLY_DONE of one job (R170). -/
def tallyNotice (x : Job) : Notice := .tallyDone x.number x.short (x.closing.getD 0)

/-- TALLY_DONE is posted for each job closed, while the station is in the member set (R170), which is read after the whole
frame (R28), also where its own JOIN is a leave and an entry (DEDUCED, log 54). Where one GONE or JOIN closes several jobs,
R191 leaves the order of the notices open; the model posts them by job slot. DESIGN CHOICE, log 6. -/
def Blocks.postTallies (before after : Replica) (b : Blocks) : Blocks :=
  if memberOf b.pres.station after then
    (closedBetween before after b.pres.station).foldl (fun x j => x.post (tallyNotice j)) b
  else b

/-- The zero reports of jobs whose pending sets the station has left are withdrawn (R179). -/
def Blocks.dropZeros (before after : Replica) (b : Blocks) : Blocks :=
  (b.cost.reports.filterMap (fun r => match r with | .zero n => some n | .line _ _ => none)).foldl
    (fun x n => if pendingIn b.pres.station n before && !pendingIn b.pres.station n after then x.withdrawZero n else x) b

/-- What the job table's moves at one change frame do to the cost unit (R169, R170, R177 to R179). -/
def Blocks.costAfter (before : Replica) (sh : Shop) (b : Blocks) : Blocks :=
  let b1 := (b.onCost (CostUnit.dueFor (leftBetween before sh.rep))).dropZeros before sh.rep
  (b1.reportChecks sh).postTallies before sh.rep

/-- The replica has become CURRENT: ACCRUING lines of jobs no longer OPEN become DUE, and the checks run (R177 to R179). -/
def Blocks.costCurrent (sh : Shop) (b : Blocks) : Blocks :=
  ((b.onCost (CostUnit.dueFor (leftOpen sh.rep))).reportChecks sh).zeroChecks sh

end Sys2Proof.Machine
end

