-- ==== Sys2Proof/Machine/PlanReports.lean ====
section
/-! DEFINITION. The slab serial counter (3.8), the CONSUME of a plan (R134, R137), and what the planner does with the
saw sequencer's reports (R133). -/

namespace Sys2Proof.Machine

/-! ## The slab serial counter -/

/-- The serials that a held SLAB_ADD or CONSUME carries (R65). -/
def Frame.serials (f : Frame) : List Nat :=
  match f.kind with
  | .slabAdd =>
    match f.payload with
    | a :: b :: _ => [be16 a b]
    | _ => []
  | .consume =>
    match remnantsOf (f.payload.drop 8) with
    | some rs => rs.map (·.serial)
    | none => []
  | .budget | .flowAsk | .flowDrop | .join | .gone | .rebase | .claim | .release | .reclaim | .scrap | .freeOrphan
  | .jobOpen | .jobClose | .costReport | .hello | .syncAsk | .snap => []

/-- The serials in use: of the station's own records and of its held frames (R65). -/
def usedSerials (sh : Shop) (b : Blocks) : List Nat :=
  (sh.rep.allSlabs.filter (fun x => x.id.origin == b.pres.station)).map (·.id.serial) ++
    (b.line.frames.map (fun w => w.frame.serials)).flatten

/-- The next serial: 4095 is followed by 1 (R65). -/
def serialAfter (s : Nat) : Nat := if s < 4095 then s + 1 else 1

/-- The first serial not in use, from one on (R65); with at most 208 in use, 256 trials always find it. -/
def firstFree (used : List Nat) : Nat → Nat → Nat
  | 0, s => s
  | n + 1, s => if used.contains s then firstFree used n (serialAfter s) else s

/-- The counter moves on past a serial that is taken (R66). -/
def Blocks.serialTaken (sh : Shop) (b : Blocks) : Blocks :=
  { b with pres := { b.pres with serial := firstFree (usedSerials sh b) 256 (serialAfter b.pres.serial) } }

/-- The highest of a list, 0 for none. -/
def highest (l : List Nat) : Nat := l.foldl max 0

/-- The counter is set from the stock table on entry to MEMBER (R65). -/
def Blocks.setSerial (sh : Shop) (b : Blocks) : Blocks :=
  let own := (sh.rep.allSlabs.filter (fun x => x.id.origin == b.pres.station)).map (·.id.serial)
  let s := if own.isEmpty then 1 else firstFree (usedSerials sh b) 256 (serialAfter (highest own))
  { b with pres := { b.pres with serial := s } }

/-! ## The plan -/

/-- The active plan is changed. -/
def Blocks.onPlan (f : Plan → Plan) (b : Blocks) : Blocks :=
  { b with planner := { b.planner with plan := b.planner.plan.map f } }

/-- The plan is set or ended. -/
def Blocks.setPlan (p : Option Plan) (b : Blocks) : Blocks := { b with planner := { b.planner with plan := p } }

/-- The offcut of larger area first; among equal areas the earlier stays first (R134). -/
def insertOffcut (x : Offcut) : List Offcut → List Offcut
  | [] => [x]
  | a :: rest => if x.length * x.width ≤ a.length * a.width then a :: insertOffcut x rest else x :: a :: rest

/-- Open offcuts in remnant order: largest area first, earliest first among equals (R134). -/
def byArea (l : List Offcut) : List Offcut := l.foldl (fun acc x => insertOffcut x acc) []

/-- The offcuts offered as remnants: both dimensions at least 250 mm, up to three (R134). -/
def remnantOffcuts (l : List Offcut) : List Offcut :=
  (byArea (l.filter (fun x => 250 ≤ x.length && 250 ≤ x.width))).take 3

/-- The piece area total: of every placement, or of the done ones of an abandoned plan (R134, R137). -/
def Plan.pieceTotal (p : Plan) : Nat :=
  ((if p.abandoned then p.placements.filter (·.done) else p.placements).map (fun x => x.length * x.width)).sum

/-- One remnant takes its serial (R134, R66). -/
def Blocks.takeRemnant (sh : Shop) (x : Offcut) (acc : List Remnant × Blocks) : List Remnant × Blocks :=
  (acc.1 ++ [{ serial := acc.2.pres.serial, length := x.length, width := x.width }], acc.2.serialTaken sh)

/-- The CONSUME of the plan's slab is composed with serials newly taken, and offered (R134, R137). -/
def Blocks.offerConsume (sh : Shop) (b : Blocks) : Blocks :=
  match b.planner.plan with
  | none => b
  | some p =>
    let offcuts := if p.abandoned then [] else remnantOffcuts p.offcuts
    let taken := offcuts.foldl (fun acc x => Blocks.takeRemnant sh x acc) ([], b)
    (taken.2.onPlan (fun q => { q with keptConsume := !b.pres.mem.offers })).offer .planner
      (mkFrame .consume (consumePayload p.slab p.abandoned p.pieceTotal taken.1))

/-- The plan takes a state; while RECLAIMING the state to return to takes it (R124). -/
def Plan.mirror (st : PlanState) (p : Plan) : Plan :=
  if p.releasing then p else if p.state = .reclaiming then { p with back := st } else { p with state := st }

/-- The plan state that mirrors a sequencer state; IDLE mirrors none (R124). -/
def SawState.mirrored : SawState → Option PlanState
  | .idle => none
  | .loadWait => some .loadWait
  | .waterWait | .spinup | .cutting | .held | .indexWait => some .running
  | .finishing => some .consuming
  | .faulted => some .faulted

/-- The sequencer reports its state (R133); out of FAULTED the plan's fault reason goes. -/
def Blocks.reportState (st : SawState) (b : Blocks) : Blocks :=
  match st.mirrored with
  | none => b
  | some x => b.onPlan (fun p => { p.mirror x with fault := if x = .faulted then p.fault else none })

/-- The sequencer reports a fault with its reason (R133). -/
def Blocks.reportFault (r : FaultReason) (b : Blocks) : Blocks :=
  b.onPlan (fun p => { p.mirror .faulted with fault := some r })

/-- The sequencer reports a cut that enters CUTTING: the started flag is set (R133). -/
def Blocks.reportStarted (b : Blocks) : Blocks := b.onPlan (fun p => { p with started := true })

/-- The cut of an index, counted from 1, is DONE. -/
def markDone (n : Nat) (l : List Cut) : List Cut := l.modify (n - 1) (fun c => { c with done := true })

/-- A placement is done when every cut appended at or before it is DONE (R133). -/
def placementDone (cuts : List Cut) (index : Nat) : Bool := (cuts.filter (fun c => c.placement ≤ index)).all (·.done)

/-- The done marks of the placements, read off the cut list (R133). -/
def markPlacements (cuts : List Cut) (l : List Placement) : List Placement :=
  l.mapIdx (fun i x => { x with done := placementDone cuts (i + 1) })

/-- The sequencer reports a completed cut (R133). -/
def Blocks.reportCutDone (n : Nat) (b : Blocks) : Blocks :=
  b.onPlan (fun p =>
    { p with cuts := markDone n p.cuts, placements := markPlacements (markDone n p.cuts) p.placements })

/-- The sequencer reports FINISHING: the CONSUME is composed and offered, or kept while RECLAIMING (R133, R134, R139). -/
def Blocks.reportFinishing (sh : Shop) (b : Blocks) : Blocks :=
  match b.planner.plan with
  | none => b
  | some p =>
    let b1 := b.reportState .finishing
    if p.state = .reclaiming then b1.onPlan (fun q => { q with keptConsume := true }) else b1.offerConsume sh

end Sys2Proof.Machine
end

