-- ==== Sys2Proof/Machine/Saw.lean ====
section
/-! DEFINITION. The saw sequencer (08): outputs, water, states, cuts and faults. -/

namespace Sys2Proof.Machine

/-- The sequencer's state is changed. -/
def Blocks.onSaw (f : Saw → Saw) (b : Blocks) : Blocks := { b with saw := f b.saw }

/-- The sequencer is at work: a CUTTER that is not INERT (R49, R50). -/
def Blocks.saws (b : Blocks) : Bool := b.pres.role == .cutter && b.pres.mem != .inert

/-! ## Outputs -/

/-- The valve flow changes, and the measurement unit is told of each opening and closing (R142, R107). -/
def Blocks.setValve (v : Nat) (b : Blocks) : Blocks :=
  let b1 := b.onSaw (fun w => { w with valve := v })
  if b.saw.valve = 0 ∧ 0 < v then { b1 with meas := { b1.meas with valveOpen := true } }
  else if 0 < b.saw.valve ∧ v = 0 then { b1 with meas := { b1.meas with valveOpen := false, dryT := none, dry := false } }
  else b1

/-- The valve is driven at the grant held (R142). -/
def Blocks.valveAtGrant (b : Blocks) : Blocks := b.setValve (b.saw.flowAt b.saw.grant)

/-- The blade turns off: the spin timer stops, the at-speed flag is cleared and the valve closes (R142). -/
def Blocks.bladeOff (b : Blocks) : Blocks :=
  (b.onSaw (fun w => { w with blade := false, spinT := none, atSpeed := false })).setValve 0

/-- The blade turns on: the spin timer starts, the at-speed flag is cleared and the valve opens at the grant (R142). -/
def Blocks.bladeOn (b : Blocks) : Blocks :=
  (b.onSaw (fun w => { w with blade := true, spinT := b.after 3000, atSpeed := false })).valveAtGrant

/-- The feed stops at once (R143). Its rate and period read 0 while it is off, of which R164 says nothing. DESIGN CHOICE,
log 41. -/
def Blocks.feedOff (b : Blocks) : Blocks :=
  b.onSaw (fun w => { w with feedOn := false, feedRate := 0, pulsePeriod := 0 })

/-- The feed rate for the grant held and the load derate flag (R152). -/
def Blocks.rateNow (b : Blocks) : Nat :=
  match b.saw.plan with
  | some p => feedRate p.baseFeed p.need b.saw.grant b.meas.derate
  | none => 0

/-- The feed rate is worked out afresh; the pulse in progress keeps its period (R152, R143). -/
def Blocks.setRate (b : Blocks) : Blocks := b.onSaw (fun w => { w with feedRate := b.rateNow })

/-- The drop timer starts (R148). -/
def Blocks.startDrop (b : Blocks) : Blocks :=
  if b.saw.waterWanted then b.onSaw (fun w => { w with dropT := b.after 5000 }) else b

/-- The sequencer enters a state and reports it to the planner (R133). -/
def Blocks.sawEnter (st : SawState) (b : Blocks) : Blocks := (b.onSaw (fun w => { w with st := st })).reportState st

/-! ## Faults -/

/-- The resume cut of a fault, and whether it has been entered; 0 for none (R158). -/
def Saw.resumeAt (w : Saw) : Nat × Bool :=
  if w.st = .indexWait then (w.nextCut.getD 0, false)
  else if w.entered && !(w.cut? w.cur).elim true (·.done) then (w.cur, true)
  else (0, false)

/-- The sequencer faults (R158). -/
def Blocks.sawFault (r : FaultReason) (b : Blocks) : Blocks :=
  let at_ := b.saw.resumeAt
  let b1 := (b.feedOff.bladeOff.onSaw (fun w =>
    { w with
      holdT := none, idleSpinT := none, st := .faulted, fault := some r, resumeCut := at_.1
      resumeEntered := at_.2 })).reportFault r
  let b2 := b1.startDrop
  if r = .slabLost then b2 else b2.post (.planFault r b.saw.cur b.saw.enc)

/-- A pulse begins: the commanded-pulse count rises, and past 500 above the encoder counter the saw stalls (R143, R159). -/
def Blocks.pulseBegins (b : Blocks) : Blocks :=
  let b1 := b.onSaw (fun w => { w with cmd := w.cmd + 1, pulsePeriod := pulsePeriod w.feedRate })
  if b1.saw.enc + 500 < b1.saw.cmd then b1.sawFault .stall else b1

/-! ## Water -/

/-- A FLOW_ASK frame. -/
def isFlowAsk (f : Frame) : Bool := f.kind == .flowAsk

/-- A FLOW_DROP frame. -/
def isFlowDrop (f : Frame) : Bool := f.kind == .flowDrop

/-- The replica holds no entry of the station, or one whose asked value is below the need (R147). -/
def askShort (station need : Nat) (l : Ledger) : Bool :=
  match l.entryOf station with
  | none => true
  | some e => e.asked < need

/-- The ask check (R147). -/
def Blocks.askCheck (sh : Shop) (b : Blocks) : Blocks :=
  if b.saw.waterWanted && b.saw.plan.isSome && live sh b && !b.line.held .saw isFlowAsk &&
      askShort b.pres.station b.saw.need sh.rep.ledger then
    b.offer .saw (mkFrame .flowAsk (bytes2 b.saw.need))
  else b

/-- GO and RESUME set the water-wanted flag, stop the drop timer, withdraw a FLOW_DROP and make the ask check (R146, R163). -/
def Blocks.wantWater (sh : Shop) (b : Blocks) : Blocks :=
  ((b.onSaw (fun w => { w with waterWanted := true, dropT := none })).withdraw .saw isFlowDrop).askCheck sh

/-! ## Cuts -/

/-- A cut is entered: both counts return to 0 (R144). -/
def Blocks.enterCut (n : Nat) (b : Blocks) : Blocks :=
  b.onSaw (fun w => { w with cur := n, entered := true, enc := 0, cmd := 0 })

/-- FINISHING: the blade and the valve are off, and the planner composes the CONSUME (R157). -/
def Blocks.enterFinishing (sh : Shop) (b : Blocks) : Blocks :=
  (b.bladeOff.onSaw (fun w => { w with st := .finishing, holdT := none, idleSpinT := none })).reportFinishing sh

/-- The current cut is completed (R155): INDEX_WAIT when PENDING cuts remain (R156), else FINISHING. -/
def Blocks.completeCut (sh : Shop) (b : Blocks) : Blocks :=
  match b.saw.cut? b.saw.cur, b.saw.plan with
  | some c, some p =>
    let n := b.saw.cur
    let b1 := (b.feedOff.onSaw (fun w => { w with plan := some { p with cuts := markDone n p.cuts } })).reportCutDone n
    let b2 := (b1.onCost (CostUnit.chargeFace c.job (c.length * p.thickness))).post (.cutDone n c.kind c.job)
    if (nextPending (markDone n p.cuts)).isSome then
      (b2.onSaw (fun w => { w with idleSpinT := b.after 20000 })).sawEnter .indexWait
    else b2.enterFinishing sh
  | _, _ => b

/-- The counter has reached the current cut's target (R144, R155). -/
def Saw.atTarget (w : Saw) : Bool := w.target ≤ w.enc

/-- CUTTING is entered (R152): the planner is told, the target is tested, and the feed starts with its first pulse
(log 14). -/
def Blocks.enterCutting (sh : Shop) (b : Blocks) : Blocks :=
  let b1 := ((b.onSaw (fun w => { w with holdT := none, idleSpinT := none, started := true })).sawEnter
    .cutting).reportStarted.valveAtGrant
  if b1.saw.atTarget then b1.completeCut sh
  else (b1.setRate.onSaw (fun w => { w with feedOn := true })).pulseBegins

/-- SPINUP is entered (R151); a blade that is to turn on while STOP is asserted faults instead (R161). -/
def Blocks.enterSpinup (sh : Shop) (b : Blocks) : Blocks :=
  let b1 := (b.onSaw (fun w => { w with holdT := none })).sawEnter .spinup
  if b1.saw.blade then
    if b1.saw.atSpeed then b1.enterCutting sh else b1.valveAtGrant
  else if b1.stop then b1.sawFault .stop
  else b1.bladeOn

/-- WATER_WAIT is entered (R150): the hold timer starts while the started flag is set (R154), and the grant is tested. -/
def Blocks.enterWaterWait (sh : Shop) (b : Blocks) : Blocks :=
  let b1 := (b.feedOff.bladeOff.onSaw (fun w =>
    { w with idleSpinT := none, holdT := if w.started then b.after 30000 else none })).sawEnter .waterWait
  if atLeast60 b1.saw.grant b1.saw.need then b1.enterSpinup sh else b1

/-- HELD is entered from CUTTING (R153). -/
def Blocks.enterHeld (b : Blocks) : Blocks :=
  let b1 := (b.feedOff.onSaw (fun w => { w with holdT := b.after 30000 })).sawEnter .held
  if atLeast25 b1.saw.grant b1.saw.need then b1.valveAtGrant else b1.bladeOff

/-! ## The grant -/

/-- A change of the grant in HELD (R153). -/
def Blocks.grantInHeld (sh : Shop) (b : Blocks) : Blocks :=
  if atLeast60 b.saw.grant b.saw.need then
    if b.saw.atSpeed then b.enterCutting sh else b.enterSpinup sh
  else if atLeast25 b.saw.grant b.saw.need then
    if b.saw.blade then b.valveAtGrant else if b.stop then b.sawFault .stop else b.bladeOn
  else b.bladeOff

/-- The sequencer's grant changes (R149): the state's rule moves it. -/
def Blocks.grantMoves (sh : Shop) (b : Blocks) : Blocks :=
  match b.saw.st with
  | .idle | .loadWait | .finishing | .faulted => b
  | .waterWait => if atLeast60 b.saw.grant b.saw.need then b.enterSpinup sh else b
  | .spinup => if atLeast60 b.saw.grant b.saw.need then b.valveAtGrant else b.enterWaterWait sh
  | .cutting => if atLeast60 b.saw.grant b.saw.need then b.setRate.valveAtGrant else b.enterHeld
  | .held => b.grantInHeld sh
  | .indexWait =>
    if b.saw.blade then
      if atLeast25 b.saw.grant b.saw.need then b.valveAtGrant
      else b.bladeOff.onSaw (fun w => { w with idleSpinT := none })
    else b

/-- The grant the sequencer holds becomes `g`; where it stands already nothing moves (R149). -/
def Blocks.setGrant (sh : Shop) (g : Nat) (b : Blocks) : Blocks :=
  if b.saw.grant = g then b else (b.onSaw (fun w => { w with grant := g })).grantMoves sh

/-- The table unit reports the effective grant when it has moved, and posts GRANT_CHANGED (R100). -/
def Blocks.grantReport (before : Nat) (sh : Shop) (b : Blocks) : Blocks :=
  if effGrant sh b = before then b
  else (b.setGrant sh (effGrant sh b)).post (.grantChanged (effGrant sh b) before sh.gen)

/-! ## The planner's words to the sequencer -/

/-- A sealed plan is taken up (R145). -/
def Blocks.takeUp (p : Plan) (b : Blocks) : Blocks :=
  (b.onSaw (fun w =>
    { w with
      plan := some
        { thickness := p.thickness, need := needOf p.thickness, baseFeed := baseFeedOf p.thickness, cuts := p.cuts }
      cur := if p.cuts.isEmpty then 0 else 1
      entered := false, resumeCut := 0, resumeEntered := false, started := false, fault := none })).sawEnter .loadWait

/-- The sequencer returns to IDLE and discards its plan copy, the counts left (R157, R162). The rules do not say what the
current cut then is: none, with no resume cut, which READ_PLAN and a later SLAB_LOST show. DESIGN CHOICE, log 40. -/
def Blocks.sawIdle (b : Blocks) : Blocks :=
  b.onSaw (fun w =>
    { w with
      st := .idle, fault := none, plan := none, cur := 0, entered := false, resumeCut := 0
      resumeEntered := false })

/-- The plan has ended on a taken CONSUME (R157). -/
def Blocks.sawPlanEnded (b : Blocks) : Blocks := if b.saw.st = .finishing then b.sawIdle.startDrop else b

/-- The plan is withdrawn (R162). -/
def Blocks.sawWithdrawn (b : Blocks) : Blocks :=
  if b.saw.st = .loadWait ∨ b.saw.st = .faulted then
    if b.saw.dropT.isSome then b.sawIdle else b.sawIdle.startDrop
  else b

/-- SLAB_LOST (R162). -/
def Blocks.sawSlabLost (b : Blocks) : Blocks :=
  match b.saw.st with
  | .idle => b
  | .faulted => (b.onSaw (fun w => { w with fault := some .slabLost })).reportFault .slabLost
  | .loadWait | .waterWait | .spinup | .cutting | .held | .indexWait | .finishing => b.sawFault .slabLost

/-! ## Membership, breaks and reports -/

/-- The station stops being a MEMBER: FLOW_ASK and FLOW_DROP are withdrawn (R149). -/
def Blocks.sawLeaves (b : Blocks) : Blocks :=
  b.withdraw .saw (fun f => isFlowAsk f || isFlowDrop f)

/-- JAM is told (R160). -/
def Blocks.tellJam (b : Blocks) : Blocks := if b.saw.blade then b.sawFault .jam else b

/-- DRY is told (R160). -/
def Blocks.tellDry (b : Blocks) : Blocks := if 0 < b.saw.valve then b.sawFault .dry else b

/-- The load derate flag is told (R105, R152). -/
def Blocks.tellDerate (b : Blocks) : Blocks := if b.saw.st = .cutting then b.setRate else b

/-! ## GO and RESUME -/

/-- GO in LOAD_WAIT (R146, R148; log 31). -/
def Blocks.goLoad (sh : Shop) (b : Blocks) : Blocks :=
  match b.saw.plan with
  | none => b
  | some p =>
    if p.cuts.isEmpty then ((b.onSaw (fun w => { w with dropT := none })).withdraw .saw isFlowDrop).enterFinishing sh
    else ((b.enterCut 1).wantWater sh).enterWaterWait sh

/-- GO in INDEX_WAIT (R146). -/
def Blocks.goIndex (sh : Shop) (b : Blocks) : Blocks :=
  match b.saw.nextCut with
  | none => b
  | some n =>
    let b1 := ((b.onSaw (fun w => { w with idleSpinT := none })).enterCut n).wantWater sh
    if atLeast60 b1.saw.grant b1.saw.need then
      if b1.saw.atSpeed then b1.enterCutting sh else b1.enterSpinup sh
    else b1.enterWaterWait sh

/-- RESUME (R163). -/
def Blocks.sawResume (sh : Shop) (b : Blocks) : Blocks :=
  let b1 :=
    if b.saw.resumeEntered then
      b.onSaw (fun w => { w with cur := w.resumeCut, entered := true, cmd := w.enc })
    else b.enterCut b.saw.resumeCut
  ((b1.onSaw (fun w => { w with fault := none, resumeCut := 0, resumeEntered := false })).wantWater sh).enterWaterWait sh

end Sys2Proof.Machine
end

