-- ==== Sys2Proof/Machine/Planner.lean ====
section
/-! DEFINITION. The planner (07): the piece queue, search and claim, placement, looks and sealing, the outcomes of its
frames, abandoning, and leaving and rejoining the shop. -/

namespace Sys2Proof.Machine

/-- The planner's state is changed. -/
def Blocks.onPlanner (f : Planner → Planner) (b : Blocks) : Blocks := { b with planner := f b.planner }

/-- The planner is at work: a CUTTER that is not INERT (R49, R140). -/
def Blocks.plans (b : Blocks) : Bool := b.pres.role == .cutter && b.pres.mem != .inert

/-! ## Search and claim -/

/-- A rectangle takes a piece as given, or rotated when rotation is allowed (R126, R129). -/
def fitsAs (l w long wide : Nat) : Bool := l ≤ long && w ≤ wide

/-- A piece fits a rectangle (R126, R129). -/
def Piece.fits (p : Piece) (long wide : Nat) : Bool :=
  fitsAs p.length p.width long wide || (p.rotate && fitsAs p.width p.length long wide)

/-- The order of fitting records: area, REMNANT before SHEET, then the id (R126). -/
def Slab.betterThan (x y : Slab) : Bool :=
  let a := x.length * x.width
  let c := y.length * y.width
  a < c || (a == c &&
    (y.kind.code < x.kind.code || (x.kind == y.kind && x.id.code < y.id.code)))

/-- The best of the records that fit a piece (R126). -/
def bestRecord (p : Piece) (l : List Slab) : Option Slab :=
  (l.filter (fun x => x.state == .free && x.material == p.material && x.thickness == p.thickness &&
    p.fits x.length x.width)).foldl
    (fun best x =>
      match best with
      | none => some x
      | some y => if x.betterThan y then some x else some y) none

/-- What a search comes to: the pieces with their states, the PIECE_WAITING notices, the winner and its record. -/
structure Found where
  pieces : List Piece
  posts : List Notice
  win : Option (Piece × Slab)
  deriving DecidableEq, Repr

/-- A search over the pieces in queue order (R126). -/
def searchPieces (r : Replica) (c : CostUnit) : List Piece → Found
  | [] => { pieces := [], posts := [], win := none }
  | p :: rest =>
    if jobOpenIn p.job r then
      if c.canReserve p.job then
        match bestRecord p r.allSlabs with
        | some x => { pieces := { p with state := .queued } :: rest, posts := [], win := some ({ p with state := .queued }, x) }
        | none =>
          let f := searchPieces r c rest
          { f with
            pieces := { p with state := .waitStock } :: f.pieces
            posts := (if p.state = .waitStock then [] else [.pieceWaiting p.id p.job]) ++ f.posts }
      else
        let f := searchPieces r c rest
        { f with pieces := { p with state := .waitLine } :: f.pieces }
    else
      let f := searchPieces r c rest
      { f with pieces := p :: f.pieces }

/-- A CLAIM frame. -/
def isClaim (f : Frame) : Bool := f.kind == .claim

/-- A RELEASE frame. -/
def isRelease (f : Frame) : Bool := f.kind == .release

/-- A RECLAIM frame. -/
def isReclaim (f : Frame) : Bool := f.kind == .reclaim

/-- A CONSUME frame. -/
def isConsume (f : Frame) : Bool := f.kind == .consume

/-- A new plan in CLAIMING (R126). -/
def Plan.claimed (p : Piece) (x : Slab) : Plan :=
  { slab := x.id, length := x.length, width := x.width, material := x.material, thickness := x.thickness
    state := .claiming, back := .claiming, fault := none, releasing := false, placements := [], offcuts := []
    cuts := [], started := false, piece := some p.id, job := p.job, keptRelease := false, keptConsume := false
    abandoned := false }

/-- Notices are posted in order. -/
def Blocks.postAll (l : List Notice) (b : Blocks) : Blocks := l.foldl (fun x n => x.post n) b

/-- A search runs when there is no plan, the station is LIVE and it holds no slab record (R125). -/
def Blocks.search (sh : Shop) (b : Blocks) : Blocks :=
  if b.plans && b.planner.plan.isNone && live sh b && !sh.rep.holds b.pres.station then
    let f := searchPieces sh.rep b.cost b.planner.pieces
    let b1 := (b.onPlanner (fun p => { p with pieces := f.pieces })).postAll f.posts
    match f.win with
    | none => b1
    | some (p, x) =>
      ((b1.onCost (CostUnit.reserve p.job)).setPlan (some (Plan.claimed p x))).offer .planner
        (mkFrame .claim (bytes2 x.id.code))
  else b

/-! ## Placement -/

/-- The best offcut a piece fits: smallest area, earliest among equals; its index from 0 (R129). -/
def bestOffcut (p : Piece) : List Offcut → Nat → Option (Nat × Offcut) → Option (Nat × Offcut)
  | [], _, best => best
  | x :: rest, i, best =>
    if p.fits x.length x.width then
      match best with
      | none => bestOffcut p rest (i + 1) (some (i, x))
      | some (j, y) =>
        bestOffcut p rest (i + 1) (if x.length * x.width < y.length * y.width then some (i, x) else some (j, y))
    else bestOffcut p rest (i + 1) best

/-- Whether the piece goes in rotated: only when it fits no other way (R129). -/
def Piece.rotatedIn (p : Piece) (x : Offcut) : Bool := !fitsAs p.length p.width x.length x.width

/-- The cuts a placement appends: CROSS, then RIP (R130). -/
def cutsFor (x : Offcut) (l w index job : Nat) : List Cut :=
  (if l < x.length then [{ kind := .cross, length := x.width, placement := index, job := job, done := false }] else []) ++
    (if w < x.width then [{ kind := .rip, length := l, placement := index, job := job, done := false }] else [])

/-- The end offcut and the side offcut that a placement of l by w leaves (R130). -/
def offcutsCut (x : Offcut) (l w : Nat) : List Offcut :=
  (if l < x.length then [{ x := x.x + l + 4, y := x.y, length := x.length - l - 4, width := x.width }] else []) ++
    (if w < x.width then [{ x := x.x, y := x.y + w + 4, length := l, width := x.width - w - 4 }] else [])

/-- The offcuts a placement leaves, each kept only when both its dimensions are at least 100 mm (R130). -/
def offcutsFrom (x : Offcut) (l w : Nat) : List Offcut :=
  (offcutsCut x l w).filter (fun o => 100 ≤ o.length && 100 ≤ o.width)

/-- A piece is placed into an open offcut (R130). -/
def Plan.place (p : Piece) (i : Nat) (x : Offcut) (q : Plan) : Plan :=
  let rotated := p.rotatedIn x
  let l := if rotated then p.width else p.length
  let w := if rotated then p.length else p.width
  let index := q.placements.length + 1
  let cuts := q.cuts ++ cutsFor x l w index p.job
  { q with
    cuts := cuts
    offcuts := q.offcuts.eraseIdx i ++ offcutsFrom x l w
    placements := q.placements ++
      [{ piece := p, x := x.x, y := x.y, length := l, width := w, rotated := rotated, done := cuts.all (·.done) }] }

/-- A piece leaves the queue and is placed; the cost unit is told and PIECE_PLACED posted (R130). -/
def Blocks.placePiece (p : Piece) (i : Nat) (x : Offcut) (b : Blocks) : Blocks :=
  match b.planner.plan with
  | none => b
  | some q =>
    let index := q.placements.length + 1
    let b1 := b.onPlanner (fun n =>
      { n with pieces := n.pieces.filter (fun a => a.id != p.id), plan := some (q.place p i x), sealT := none })
    (b1.onCost (CostUnit.joined p.job index)).post (.piecePlaced p.id q.slab index (p.rotatedIn x))

/-- The sealing timer is set or stopped (R131). -/
def Blocks.setSealT (t : Option Nat) (b : Blocks) : Blocks := b.onPlanner (fun p => { p with sealT := t })

/-- The plan is sealed and handed to the sequencer (R132, R145). -/
def Blocks.sealNow (b : Blocks) : Blocks :=
  match b.planner.plan with
  | none => b
  | some p =>
    (((b.setSealT none).onPlan (fun q => { q with state := .sealed })).post
      (.planSealed p.slab p.placements.length p.cuts.length)).takeUp p

/-- The candidates of a look: eligible pieces of the slab's material and thickness (R131). -/
def candidates (r : Replica) (q : Plan) (l : List Piece) : List Piece :=
  l.filter (fun p => jobOpenIn p.job r && p.material == q.material && p.thickness == q.thickness)

/-- The first candidate that fits an open offcut and whose job has a live cost line or can be given one (R131). -/
def firstPlaceable (c : CostUnit) (q : Plan) : List Piece → Option (Piece × Nat × Offcut)
  | [] => none
  | p :: rest =>
    match bestOffcut p q.offcuts 0 none with
    | some (i, x) => if c.canReserve p.job then some (p, i, x) else firstPlaceable c q rest
    | none => firstPlaceable c q rest

/-- A plan on which looks run: PLANNING, with no RELEASE on its way (R131; log 16). -/
def Plan.open_ (q : Plan) : Bool := q.state == .planning && !q.releasing

/-- A look in PLANNING (R131), again after each placement; a plan takes at most 6. -/
def Blocks.lookUpTo (sh : Shop) : Nat → Blocks → Blocks
  | 0, b => b
  | n + 1, b =>
    match b.planner.plan with
    | none => b
    | some q =>
      if q.open_ && live sh b then
        if 6 ≤ q.placements.length || q.offcuts.isEmpty then b.sealNow
        else
          let l := candidates sh.rep q b.planner.pieces
          match firstPlaceable b.cost q l with
          | some (p, i, x) => Blocks.lookUpTo sh n ((b.onCost (CostUnit.reserve p.job)).placePiece p i x)
          | none =>
            if l.isEmpty then (if b.planner.sealT.isSome then b else b.setSealT (b.after 2000)) else b.sealNow
      else b

/-- A look (R131). -/
def Blocks.look (sh : Shop) (b : Blocks) : Blocks := if b.plans then b.lookUpTo sh 7 else b

/-- A search or a look, whichever the plan allows (R120, R122). -/
def Blocks.searchOrLook (sh : Shop) (b : Blocks) : Blocks := (b.search sh).look sh

/-! ## The end of a plan -/

/-- The plan ends and returns to NONE: the cost unit is told, and a search runs (R125, R173). -/
def Blocks.planEnds (sh : Shop) (b : Blocks) : Blocks := (((b.setPlan none).setSealT none).costPlanEnded sh).search sh

/-- A claim comes to nothing: the line reserved is released when it holds no charges, and the plan ends (R127). -/
def Blocks.claimFails (sh : Shop) (p : Plan) (b : Blocks) : Blocks := (b.onCost (CostUnit.release p.job)).planEnds sh

/-- RELEASE of the plan's slab is offered (R128, R136, R139). -/
def Blocks.offerRelease (b : Blocks) : Blocks :=
  match b.planner.plan with
  | none => b
  | some p =>
    (b.onPlan (fun q => { q with releasing := true, keptRelease := !b.pres.mem.offers })).offer .planner
      (mkFrame .release (bytes2 p.slab.code))

/-- RECLAIM of the plan's slab is offered (R139). -/
def Blocks.offerReclaim (b : Blocks) : Blocks :=
  match b.planner.plan with
  | none => b
  | some p => b.offer .planner (mkFrame .reclaim (bytes2 p.slab.code))

/-- The plan faults with SLAB_LOST: PLAN_FAULT is posted and the sequencer told (R135, R139, R162, R192). -/
def Blocks.planSlabLost (b : Blocks) : Blocks :=
  let index := if b.saw.st = .faulted then b.saw.resumeCut else b.saw.cur
  ((b.onPlan (fun p => { p with state := .faulted, fault := some .slabLost, keptConsume := false })).post
    (.planFault .slabLost index b.saw.enc)).sawSlabLost

/-! ## Outcomes of its own frames -/

/-- The claimed piece, or in its absence the first eligible piece of the queue that fits the whole slab and has or
can get a cost line, is placed first; when there is none the record is released (R127, R128). The line reserved for the
claimed piece may have been reported meanwhile (its job absent from a rebuilt replica, the line DUE and then SENT), and R173
counts on room for every reserve; the model reserves afresh at the placement, and with all 24 slots held the piece is placed
with no line, and no first job is set. DESIGN CHOICE, log 53. -/
def Blocks.firstPlacement (sh : Shop) (p : Plan) (b : Blocks) : Blocks :=
  match b.planner.plan with
  | none => b
  | some q =>
    match b.planner.pieces.find? (fun a => p.piece == some a.id) with
    | some a =>
      match bestOffcut a q.offcuts 0 none with
      | some (i, x) => ((b.onCost (CostUnit.reserve a.job)).placePiece a i x).look sh
      | none => b.look sh
    | none =>
      match firstPlaceable b.cost q (candidates sh.rep q b.planner.pieces) with
      | some (a, i, x) =>
        (((b.onCost (CostUnit.reserve a.job)).placePiece a i x).onCost (CostUnit.release p.job)).look sh
      | none => b.offerRelease.onCost (CostUnit.release p.job)

/-- The outcome of its own CLAIM (R127). -/
def Blocks.claimOutcome (sh : Shop) (i : SlabId) (taken : Bool) (b : Blocks) : Blocks :=
  match b.planner.plan with
  | none => b
  | some p =>
    if p.state = .claiming ∧ p.slab = i then
      if taken then
        (b.onPlan (fun q =>
          { q with state := .planning, offcuts := [{ x := 0, y := 0, length := q.length, width := q.width }] })).firstPlacement sh p
      else b.claimFails sh p
    else b

/-- The planner withdraws its CLAIM: WITHDRAWN ends the plan as a void claim does (R128). -/
def Blocks.withdrawClaim (sh : Shop) (p : Plan) (b : Blocks) : Blocks :=
  let answer := b.line.withdrawAnswer .planner isClaim
  let b1 := b.withdraw .planner isClaim
  if answer.withdrawn then b1.claimFails sh p else b1

/-- Another station's CLAIM of the record being claimed has been taken (R128). -/
def Blocks.rivalClaim (sh : Shop) (i : SlabId) (b : Blocks) : Blocks :=
  match b.planner.plan with
  | none => b
  | some p => if p.state = .claiming ∧ p.slab = i then b.withdrawClaim sh p else b

/-- The record of an id is ORPHANED with this station as its holder: a void outcome is set aside (R135, R136). -/
def orphanedHere (sh : Shop) (b : Blocks) (i : SlabId) : Bool :=
  match sh.rep.slab? i with
  | some x => x.state == .orphaned && x.holder == some b.pres.station
  | none => false

/-- The record of an id is CLAIMED by this station. -/
def claimedHere (sh : Shop) (b : Blocks) (i : SlabId) : Bool :=
  match sh.rep.slab? i with
  | some x => x.state == .claimed && x.holder == some b.pres.station
  | none => false

/-- The outcome of its own RELEASE (R136). -/
def Blocks.releaseOutcome (sh : Shop) (i : SlabId) (taken : Bool) (b : Blocks) : Blocks :=
  match b.planner.plan with
  | none => b
  | some p =>
    if p.releasing ∧ p.slab = i then
      if !taken && orphanedHere sh b i then b.onPlan (fun q => { q with keptRelease := true }) else b.planEnds sh
    else b

/-- The state the plan follows: while RECLAIMING the state to return to (R124). -/
def Plan.following (p : Plan) : PlanState := if p.state = .reclaiming then p.back else p.state

/-- The settlement of the placements that count as cut pieces (R135, R176). -/
def Plan.settlements (p : Plan) : List Settlement :=
  (p.placements.mapIdx (fun i x => (i, x))).filterMap (fun a =>
    if p.abandoned && !a.2.done then none
    else some { job := a.2.piece.job, area := a.2.length * a.2.width, index := a.1 + 1 })

/-- The outcome of its own CONSUME (R135). R83 and R85 fault the plan on a CONSUME that is void after a GONE, R135 and
R138 set that outcome aside while the record is ORPHANED here, and R83 and R85 refer to their chapter; the model follows
R135. DEDUCED, log 38. -/
def Blocks.consumeOutcome (sh : Shop) (i : SlabId) (taken : Bool) (b : Blocks) : Blocks :=
  match b.planner.plan with
  | none => b
  | some p =>
    if p.slab = i ∧ p.following = .consuming then
      if taken then
        ((((b.onCost (CostUnit.takeSettlement p.settlements)).setPlan none).post
          (.planDone p.slab p.settlements.length p.abandoned)).sawPlanEnded).planEnds sh
      else if orphanedHere sh b i then b.onPlan (fun q => { q with keptConsume := true })
      else b.planSlabLost
    else b

/-- The RECLAIM has been taken: the plan returns to its state, and what it kept goes on (R139). -/
def Blocks.reclaimed (sh : Shop) (p : Plan) (b : Blocks) : Blocks :=
  let b1 := b.onPlan (fun q => { q with state := q.back })
  if p.keptRelease then b1.offerRelease
  else if p.keptConsume then b1.offerConsume sh
  else b1.look sh

/-- The outcome of its own RECLAIM (R139). -/
def Blocks.reclaimOutcome (sh : Shop) (i : SlabId) (taken : Bool) (b : Blocks) : Blocks :=
  match b.planner.plan with
  | none => b
  | some p =>
    if p.state = .reclaiming ∧ p.slab = i then
      if taken || claimedHere sh b i then b.reclaimed sh p
      else if orphanedHere sh b i then b
      else if p.keptRelease then b.planSlabLost.planEnds sh
      else b.planSlabLost
    else b

/-! ## The piece queue -/

/-- The JOB_PIECES_CANCELLED notices of removed pieces, one for each job, by the place of its first piece (R122). -/
def cancelNotices (gone : List Piece) : List Notice :=
  ((gone.map (·.job)).eraseDups).map (fun n => .jobPiecesCancelled n (gone.filter (fun p => p.job == n)).length)

/-- Pieces of some jobs leave the queue; the piece being claimed for takes its CLAIM along (R122, R128). Where the jobs are
several, no rule orders their notices and the search that a withdrawn CLAIM leads to; the model posts the notices first, by
the place of each job's first piece, and searches then. DESIGN CHOICE, log 6. -/
def Blocks.jobsLeft (sh : Shop) (left : Nat → Bool) (b : Blocks) : Blocks :=
  let gone := b.planner.pieces.filter (fun p => left p.job)
  let b1 := (b.onPlanner (fun p => { p with pieces := p.pieces.filter (fun a => !left a.job) })).postAll
    (cancelNotices gone)
  match b1.planner.plan with
  | none => b1
  | some p =>
    if p.state = .claiming ∧ gone.any (fun a => p.piece == some a.id) then
      (b1.onPlan (fun q => { q with piece := none })).withdrawClaim sh p
    else b1

/-- A job has left OPEN (R122). -/
def Blocks.jobLeft (sh : Shop) (n : Nat) (b : Blocks) : Blocks := b.jobsLeft sh (fun m => m == n)

/-- The replica holds a job CLOSING or CLOSED (R122). -/
def jobClosedIn (r : Replica) (n : Nat) : Bool :=
  match r.job? n with
  | some x => x.state != .opened
  | none => false

/-- The replica has become CURRENT: the job table is read afresh (R122). -/
def Blocks.rereadJobs (sh : Shop) (b : Blocks) : Blocks := b.jobsLeft sh (jobClosedIn sh.rep)

/-- A piece at its place by submission number. -/
def insertPiece (p : Piece) : List Piece → List Piece
  | [] => [p]
  | a :: rest => if a.sub < p.sub then a :: insertPiece p rest else p :: a :: rest

/-- Returning pieces go to the front of the queue in their order of submission as QUEUED, those of jobs not OPEN are
removed, and JOB_PIECES_CANCELLED is posted for each such job (R136; log 18), by the place of the job's first piece among
the returning placements, an order that no rule gives. DESIGN CHOICE, log 6. -/
def Blocks.piecesReturn (r : Replica) (back : List Piece) (b : Blocks) : Blocks :=
  let kept := (back.filter (fun p => jobOpenIn p.job r)).foldl (fun acc p => insertPiece { p with state := .queued } acc) []
  let lost := back.filter (fun p => !jobOpenIn p.job r)
  (b.onPlanner (fun n => { n with pieces := kept ++ n.pieces })).postAll (cancelNotices lost)

/-! ## Abandoning -/

/-- The placements that a test picks leave the plan: their pieces return and their cost lines are told (R136, R137). -/
def Blocks.placementsLeave (sh : Shop) (leaves : Placement → Bool) (p : Plan) (b : Blocks) : Blocks :=
  let out := p.placements.filter leaves
  let b1 := (b.onPlan (fun q => { q with placements := q.placements.filter (fun x => !leaves x) })).piecesReturn
    sh.rep (out.map (·.piece))
  (b1.onCost (fun c => out.foldl (fun x a => x.lowered a.piece.job) c)).reportChecks sh

/-- ABANDON_PLAN on a plan that can still be released or consumed (R136, R137). -/
def Blocks.abandonQueued (sh : Shop) (p : Plan) (b : Blocks) : Blocks :=
  if p.started then
    let b1 := b.sawWithdrawn.placementsLeave sh (fun x => !x.done) p
    (b1.onPlan (fun q => { q with state := .consuming, abandoned := true, fault := none })).offerConsume sh
  else (b.sawWithdrawn.placementsLeave sh (fun _ => true) p).offerRelease

/-- ABANDON_PLAN on a plan FAULTED with SLAB_LOST: it ends at once (R137). -/
def Blocks.abandonLost (sh : Shop) (p : Plan) (b : Blocks) : Blocks :=
  let b1 := b.sawWithdrawn.placementsLeave sh (fun x => !x.done) p
  let settled := p.placements.filter (·.done)
  (b1.onCost (fun c => settled.foldl (fun x a => x.lowered a.piece.job) c)).planEnds sh

/-! ## Leaving and rejoining -/

/-- The station stops being a MEMBER: a RELEASE or CONSUME that waits is withdrawn and kept (R138), and the sealing
timer stops (R131). -/
def Blocks.plannerLeaves (b : Blocks) : Blocks :=
  let release := (b.line.withdrawAnswer .planner isRelease).withdrawn
  let consume := (b.line.withdrawAnswer .planner isConsume).withdrawn
  (((b.withdraw .planner isRelease).withdraw .planner isConsume).onPlan (fun p =>
    { p with keptRelease := p.keptRelease || (release && p.releasing), keptConsume := p.keptConsume || consume })).setSealT none

/-- A plan that holds a slab (R139). -/
def Plan.holdsSlab (p : Plan) : Bool :=
  p.state != .claiming && !(p.state == .faulted && p.fault == some .slabLost)

/-- The station enters MEMBER: the planner reclaims the slab of its plan (R139), or searches (R125). -/
def Blocks.plannerEnters (sh : Shop) (b : Blocks) : Blocks :=
  match b.planner.plan with
  | none => b.search sh
  | some p =>
    if p.holdsSlab then
      if b.line.held .planner isReclaim then b
      else
        (b.onPlan (fun q => { q with back := if q.state = .reclaiming then q.back else q.state, state := .reclaiming })).offerReclaim
    else b

/-- A frame of the planner's is DISCARDED by REJOIN or MUTE (R127, R135, R136, R139). -/
def Blocks.plannerDiscarded (sh : Shop) (k : Kind) (b : Blocks) : Blocks :=
  match k, b.planner.plan with
  | .claim, some p => if p.state = .claiming then b.claimFails sh p else b
  | .release, some _ => b.onPlan (fun q => { q with keptRelease := q.releasing })
  | .consume, some _ => b.onPlan (fun q => { q with keptConsume := true })
  | _, _ => b

end Sys2Proof.Machine
end

