-- ==== Sys2Proof/Machine/Plant.lean ====
section
/-! DEFINITION. The plant unit (6.4 to 6.7) with its standby (5.5). It works in the PLANT role alone (R49). -/

namespace Sys2Proof.Machine

/-- The plant unit is at work: a PLANT station that is not INERT (R49, R50). -/
def Blocks.plants (b : Blocks) : Bool := b.pres.role == .plant && b.pres.mem != .inert

/-- The plant unit's state is changed. -/
def Blocks.onPlant (f : PlantUnit → PlantUnit) (b : Blocks) : Blocks := { b with plant := f b.plant }

/-- A BUDGET frame. -/
def isBudget (f : Frame) : Bool := f.kind == .budget

/-- The value of a BUDGET frame. -/
def budgetValue (f : Frame) : Nat :=
  match f.payload with
  | [a, b] => be16 a b
  | _ => 0

/-- The value of the BUDGET held, if one is (R113). -/
def Line.heldBudget (l : Line) : Option Nat :=
  (l.frames.find? (fun w => w.producer == .plant && isBudget w.frame)).map (fun w => budgetValue w.frame)

/-- The aim: the held BUDGET's value, else the last sent value (R113). -/
def Blocks.aim (b : Blocks) : Nat := b.line.heldBudget.getD b.plant.lastSent

/-- The conditions for offering a BUDGET (R113). -/
def Blocks.mayPublish (sh : Shop) (b : Blocks) : Bool :=
  live sh b && !b.plant.standby && b.plant.band.isSome && (b.plant.band != some .halt || 0 < b.aim)

/-- A BUDGET is offered: the last sent value takes its value (R113). -/
def Blocks.offerBudget (v : Nat) (b : Blocks) : Blocks :=
  (b.onPlant (fun p => { p with lastSent := v })).offer .plant (mkFrame .budget (bytes2 v))

/-- The spacing timer starts from an offer (R113). -/
def Blocks.startSpacing (b : Blocks) : Blocks := b.onPlant (fun p => { p with spacingT := b.after 500 })

/-- The held BUDGET is withdrawn, and again when a refused withdrawal's attempt fails (R114, R115). -/
def Blocks.withdrawBudget (b : Blocks) : Blocks := { b with line := b.line.withdraw .plant isBudget true }

/-- The comparison of the published value with the aim (R113, R114). -/
def Blocks.comparePublished (sh : Shop) (b : Blocks) : Blocks :=
  match b.plant.published with
  | none => b
  | some v =>
    match b.line.heldBudget with
    | some w =>
      if w = v then b
      else
        let answer := b.line.withdrawAnswer .plant isBudget
        let b1 := b.withdrawBudget
        if answer.withdrawn && b1.mayPublish sh then b1.offerBudget v else b1
    | none =>
      if v = b.plant.lastSent || !b.mayPublish sh then b
      else if v = 0 || b.plant.spacingT.isNone then (b.offerBudget v).startSpacing
      else b

/-- The comparison, made in the PLANT role alone. -/
def Blocks.plantCompare (sh : Shop) (b : Blocks) : Blocks := if b.plants then b.comparePublished sh else b

/-- The published value is worked out afresh (R112); when it has changed it is compared (R113, R114). -/
def Blocks.republish (sh : Shop) (b : Blocks) : Blocks :=
  let v := publishedOf b.plant.band b.plant.turbid b.plant.correction
  let b1 := b.onPlant (fun p => { p with published := v })
  if v = b.plant.published then b1 else b1.plantCompare sh

/-- The ledger budget becomes the last sent value, and the values are compared (R96). -/
def Blocks.ledgerReport (sh : Shop) (b : Blocks) : Blocks :=
  if b.plants then (b.onPlant (fun p => { p with lastSent := sh.rep.ledger.budget })).plantCompare sh else b

/-- The plant unit enters standby (R97). -/
def Blocks.enterStandby (sh : Shop) (b : Blocks) : Blocks :=
  if b.plants && !b.plant.standby then
    ((b.onPlant (fun p => { p with standby := true })).withdraw .plant isBudget).post
      (.plantConflict (optStation sh.rep.ledger.plant) sh.gen)
  else b

/-- The plant unit leaves standby (R98). -/
def Blocks.leaveStandby (b : Blocks) : Blocks :=
  if b.plants then b.onPlant (fun p => { p with standby := false }) else b

/-- Another station is the plant. -/
def Shop.otherPlant (station : Nat) (sh : Shop) : Bool :=
  match sh.rep.ledger.plant with
  | some p => p != station
  | none => false

/-- A report of the ledger on an event that also puts a unit whose flag is clear in standby (R96, R97): the last sent value
takes the ledger budget, standby is entered, and the comparison of R113 comes after it. No rule says which of the two comes
first; by this order no BUDGET is offered between, and the last sent value and the spacing timer stay as the report leaves
them. DESIGN CHOICE, log 55. -/
def Blocks.reportIntoStandby (sh : Shop) (b : Blocks) : Blocks :=
  if b.plants then
    ((b.onPlant (fun p => { p with lastSent := sh.rep.ledger.budget })).enterStandby sh).plantCompare sh
  else b

/-- The station has become LIVE: standby when another station is the plant (R97), else a comparison (R113). Standby is
entered first, and with its flag set the conditions of R113 do not come to hold, so no comparison is made. DESIGN CHOICE,
log 55. -/
def Blocks.plantLive (sh : Shop) (b : Blocks) : Blocks :=
  if b.plants && live sh b then
    if sh.otherPlant b.pres.station then b.enterStandby sh else b.plantCompare sh
  else b

/-- The replica has become CURRENT: standby ends when the plant is absent (R98), the ledger is reported (R96), and the
station may have become LIVE with another station as the plant (R97). Where it has, no rule orders the report's comparison
and the entry into standby; the model enters standby first. DESIGN CHOICE, log 55. -/
def Blocks.plantCurrent (sh : Shop) (b : Blocks) : Blocks :=
  let b1 := if sh.rep.ledger.plant.isNone then b.leaveStandby else b
  if live sh b1 && sh.otherPlant b1.pres.station then b1.reportIntoStandby sh else b1.ledgerReport sh

/-- The outcome of its own BUDGET (R114, R97). When it is taken with a value other than the published one, R115 has the
comparison of R113 made at once in HALT, and no rule says when outside HALT; the model makes it at once there too. DESIGN
CHOICE, log 50. -/
def Blocks.budgetOutcome (v : Nat) (void : Option VoidReason) (sh : Shop) (b : Blocks) : Blocks :=
  if b.plants then
    match void with
    | none => (b.onPlant (fun p => { p with lastSent := v })).plantCompare sh
    | some .otherPlant => b.enterStandby sh
    | some _ => b.ledgerReport sh
  else b

/-- Another station's BUDGET has been taken (R96); where the plant was absent it has made that station the plant (R97), and
no rule orders the report's comparison and the entry into standby: the model enters standby first. DESIGN CHOICE, log 55. -/
def Blocks.rivalBudget (before : Replica) (sh : Shop) (b : Blocks) : Blocks :=
  if before.ledger.plant.isNone then b.reportIntoStandby sh else b.ledgerReport sh

/-- What a change frame that makes the plant absent does (R96, R98). -/
def Blocks.plantAbsent (before : Replica) (sh : Shop) (b : Blocks) : Blocks :=
  if before.ledger.plant.isSome && sh.rep.ledger.plant.isNone then b.leaveStandby.ledgerReport sh else b

/-- The overdraw test of a window (R111). -/
def PlantUnit.overdraw (flow : Nat) (p : PlantUnit) : PlantUnit :=
  match p.band with
  | none => { p with overCount := 0, underCount := 0 }
  | some x =>
    if flow * 5 ≤ p.lastSent * 6 then { p with overCount := 0 }
    else if p.overCount < 4 then { p with overCount := p.overCount + 1 }
    else
      let excess := flow - budgetAfter x p.turbid
      if 0 < excess then { p with overCount := 0, correction := some excess, underCount := 0 }
      else { p with overCount := 0, correction := none }

/-- The under count of a window, while a correction is in force (R112). -/
def PlantUnit.under (flow : Nat) (p : PlantUnit) : PlantUnit :=
  if p.correction.isNone then p
  else if flow ≤ p.published.getD 0 then
    if p.underCount < 9 then { p with underCount := p.underCount + 1 }
    else { p with underCount := 0, correction := none }
  else { p with underCount := 0 }

/-- A window end handed to the plant unit (R108, R111, R112). -/
def Blocks.plantWindow (flow : Nat) (sh : Shop) (b : Blocks) : Blocks :=
  (b.onPlant (fun p => (p.under flow).overdraw flow)).republish sh

end Sys2Proof.Machine
end

