-- ==== Sys2Proof/Machine/Measure.lean ====
section
/-! DEFINITION. The measurement unit (6.1 to 6.3): the scan of two inputs, the histories, and the cutter's load and
pressure tests. -/

namespace Sys2Proof.Machine

/-- The measurement unit's state is changed. -/
def Blocks.onMeas (f : Meas → Meas) (b : Blocks) : Blocks := { b with meas := f b.meas }

/-- A new scan, with MA under conversion (R103). -/
def Scan.fresh : Scan := { maResult := none, readings := 0, last := none }

/-- A sample trigger: a scan starts, or a missed scan is counted (R103). -/
def Meas.trigger (m : Meas) : Meas :=
  if m.scan.isSome then { m with missed := min 65535 (m.missed + 1) } else { m with scan := some Scan.fresh }

/-- Two readings that differ by no more than 8 (R103). -/
def settled8 (last : Option Nat) (v : Nat) : Bool :=
  match last with
  | none => false
  | some l => v ≤ l + 8 && l ≤ v + 8

/-- A reading ends the conversion: it settles, or it is the 32nd (R103). -/
def Scan.ends (v : Nat) (x : Scan) : Bool := settled8 x.last v || 32 ≤ x.readings + 1

/-- A scan completes: the latest values and the histories take both results (R104). -/
def Meas.complete (ma mb : Nat) (m : Meas) : Meas :=
  { m with
    scan := none, ma := ma, mb := mb, maHist := joinHistory m.maHist ma, mbHist := joinHistory m.mbHist mb }

/-- A reading of the scan in progress (R103): the measurement unit after it, and whether the scan has completed. -/
def Meas.reading (v : Nat) (m : Meas) : Meas × Bool :=
  match m.scan with
  | none => (m, false)
  | some x =>
    if x.ends v then
      match x.maResult with
      | none => ({ m with scan := some { maResult := some v, readings := 0, last := none } }, false)
      | some ma => (m.complete ma v, true)
    else ({ m with scan := some { x with readings := x.readings + 1, last := some v } }, false)

/-- The filtered values, when both are valid (R104). -/
def Meas.filteredBoth (m : Meas) : Option (Nat × Nat) :=
  match filtered m.maHist, filtered m.mbHist with
  | some a, some c => some (a, c)
  | _, _ => none

/-- The load derate flag (R105). -/
def Blocks.testLoad (ma : Nat) (b : Blocks) : Blocks :=
  let flagNow := decide (700 < ma)
  if flagNow = b.meas.derate then b else (b.onMeas (fun m => { m with derate := flagNow })).tellDerate

/-- The jam timer (R106). -/
def Blocks.testJam (ma : Nat) (b : Blocks) : Blocks :=
  if 900 < ma then
    if b.meas.jamT.isNone && !b.meas.jam then b.onMeas (fun m => { m with jamT := b.after 500 }) else b
  else b.onMeas (fun m => { m with jamT := none, jam := false })

/-- The dry timer (R107). -/
def Blocks.testDry (mb : Nat) (b : Blocks) : Blocks :=
  if 120 ≤ mb then b.onMeas (fun m => { m with dryT := none, dry := false })
  else if b.meas.valveOpen && b.meas.dryT.isNone && !b.meas.dry then
    b.onMeas (fun m => { m with dryT := b.after 2000 })
  else b

/-- The cutter's tests at a scan completion with valid filtered values (6.2). -/
def Blocks.cutterScan (ma mb : Nat) (b : Blocks) : Blocks := ((b.testLoad ma).testJam ma).testDry mb

/-- A flow pulse (R108). -/
def Meas.pulse (m : Meas) : Meas := { m with pulses := min 65535 (m.pulses + 1) }

/-- A flow window ends and the next begins (R108). -/
def Meas.windowEnd (m : Meas) : Meas := { m with window := m.pulses, pulses := 0 }

end Sys2Proof.Machine
end

