-- ==== Sys2Proof/Machine/Table.lean ====
section
/-! DEFINITION. What moves through several blocks: the station's membership (03), the replica entering and leaving
CURRENT (02), MUTE and REJOIN, and the frames that these discard. -/

namespace Sys2Proof.Machine

/-! ## Membership -/

/-- The presence unit's state is changed. -/
def Blocks.onPres (f : Presence → Presence) (b : Blocks) : Blocks := { b with pres := f b.pres }

/-- The membership state is set. -/
def Blocks.setMem (m : Membership) (b : Blocks) : Blocks := b.onPres (fun p => { p with mem := m })

/-- While OUTSIDE after the listen window, the phase follows the table unit (R53). -/
def Blocks.setPhase (ph : Phase) (b : Blocks) : Blocks :=
  match b.pres.mem with
  | .outside .listen => b
  | .outside _ => b.setMem (.outside ph)
  | .inert | .joining | .member | .mute => b

/-- A JOIN frame. -/
def isJoin (f : Frame) : Bool := f.kind == .join

/-- JOIN is offered, one at a time, and the station is JOINING (R53). -/
def Blocks.offerJoin (b : Blocks) : Blocks :=
  let b1 := b.setMem .joining
  if b1.line.held .presence isJoin then b1 else b1.offer .presence (mkFrame .join [byte1 b.pres.role.code])

/-- A GONE frame. -/
def isGone (f : Frame) : Bool := f.kind == .gone

/-- A GONE frame naming a station. -/
def isGoneOf (s : Nat) (f : Frame) : Bool := f.kind == .gone && f.payload == [byte1 s]

/-- The presence unit leaves MEMBER for JOINING (R56, R62, steps 1 to 3): the HELLO timer stops and its GONE frames are
withdrawn. -/
def Blocks.leaveMember (b : Blocks) : Blocks :=
  (b.onPres (fun p => { p with mem := .joining, helloT := none })).withdraw .presence isGone

/-- The planner and the sequencer are told that the station is no longer a MEMBER (R62, step 6; R138, R149). The cost unit,
the plant unit and the host port keep their state and read the membership itself. -/
def Blocks.tellLeft (b : Blocks) : Blocks := b.plannerLeaves.sawLeaves

/-- The station stops being a MEMBER and joins again, in the order of R62's steps (R56, R62): GONE_SELF and JOIN come before
the other blocks are told, so that a slot which their withdrawals free can go to a JOIN on the wait list (R14). -/
def Blocks.rejoinShop (gen : Word16) (b : Blocks) : Blocks :=
  ((b.leaveMember.post (.goneSelf gen)).offerJoin).tellLeft

/-- Watching begins: each member never heard is given this moment (R59). -/
def Blocks.beginWatch (sh : Shop) (b : Blocks) : Blocks :=
  b.onPres (fun p =>
    { p with
      heard := (sh.rep.members.map (·.station)).foldl
        (fun h s => if (Slots.get s h).isSome then h else Slots.set s b.now h) p.heard })

/-- The station's own JOIN has been taken (R54): it is a MEMBER and LIVE, and its blocks are told. -/
def Blocks.enterMember (sh : Shop) (b : Blocks) : Blocks :=
  let b1 := (b.onPres (fun p => { p with mem := .member, helloT := b.after 1000 })).setSerial sh
  let b2 := (b1.beginWatch sh).post (.joined b.pres.station b.pres.role)
  ((b2.plantLive sh).plannerEnters sh).askCheck sh

/-! ## The replica enters and leaves CURRENT -/

/-- The presence unit when the replica becomes CURRENT (R53, R56, R59). -/
def Blocks.presenceCurrent (sh : Shop) (b : Blocks) : Blocks :=
  match b.pres.mem with
  | .outside .asking | .outside .building => b.offerJoin
  | .member => if memberOf b.pres.station sh.rep then b.beginWatch sh else b.rejoinShop sh.gen
  | .inert | .outside .listen | .joining | .mute => b

/-- The planner when the replica becomes CURRENT: it reads the job table afresh, and searches or looks as a MEMBER
(R122, R125, R131). -/
def Blocks.plannerCurrent (sh : Shop) (b : Blocks) : Blocks :=
  let b1 := b.rereadJobs sh
  if b1.isMember then b1.searchOrLook sh else b1

/-- The replica has become CURRENT by a build or by its own REBASE (R44, R47): `before` is the effective grant there was. -/
def Blocks.becomeCurrent (before : Nat) (sh : Shop) (b : Blocks) : Blocks :=
  let b1 := (((b.clearAsks.setAskT none).withdraw .table isSyncAsk).withdraw .table isRebase).post (.synced sh.gen)
  let b2 := ((b1.grantReport before sh).presenceCurrent sh).plantCurrent sh
  ((b2.plannerCurrent sh).askCheck sh).costCurrent sh

/-- The replica has left CURRENT (R27): the stream is dropped, the blocks are told, and the station asks. -/
def Blocks.becomeStale (before : Nat) (frame : Word16) (sh : Shop) (b : Blocks) : Blocks :=
  ((((b.post (.stale sh.gen frame)).dropStream).grantReport before sh).setSealT none).ask sh

/-- A CURRENT replica takes a gap (R27). -/
def Station.gap (frame : Word16) (d : Station) : Station :=
  let sh := { d.shop with state := .stale }
  { shop := sh, blk := d.blk.becomeStale (effGrant d.shop d.blk) frame sh }

/-- A build is abandoned, and the station asks again at once (R45). -/
def Station.abandonBuild (d : Station) : Station :=
  { shop := d.shop.abandoned, blk := (((d.blk.setPhase .asking).setAskT none).ask d.shop.abandoned) }

/-! ## Frames that MUTE and REJOIN discard -/

/-- The job of a job frame's payload. -/
def jobOfPayload (p : List Byte) : Nat :=
  match p with
  | a :: b :: _ => be16 a b
  | _ => 0

/-- The id of an own SLAB_ADD (R73). -/
def addedId (station : Nat) (p : List Byte) : SlabId := { origin := station, serial := jobOfPayload p }

/-- A producer is told DISCARDED for one of its frames (R14; R74, R171, R127, R135, R136, R178, R179). -/
def Blocks.discarded (sh : Shop) (w : Waiter) (b : Blocks) : Blocks :=
  match w.producer, w.frame.kind with
  | .host, .slabAdd => b.post (.addRefused (addedId b.pres.station w.frame.payload) .discarded)
  | .host, .jobOpen => b.post (.jobRefused (jobOfPayload w.frame.payload) .jobOpen .discarded)
  | .host, .jobClose => b.post (.jobRefused (jobOfPayload w.frame.payload) .jobClose .discarded)
  | .planner, k => b.plannerDiscarded sh k
  | .cost, _ => b.onCost (CostUnit.reportDiscarded (jobOfPayload w.frame.payload))
  | _, _ => b

/-- The queue, the wait list and the backlogs are emptied, and each producer is told DISCARDED (R14, R171). No rule orders
the producers' notices of one such moment; the model's order is that of the queue, the wait list and then the backlogs.
DESIGN CHOICE, log 6. -/
def Blocks.discardAll (sh : Shop) (b : Blocks) : Blocks :=
  b.line.frames.foldl (fun x w => x.discarded sh w) { b with line := b.line.emptied }

/-- MUTE is entered (R22, R63): the timers stop, the queue is emptied, the stream is dropped and a REJOIN cancelled. -/
def Blocks.enterMute (sh : Shop) (b : Blocks) : Blocks :=
  let b1 := b.onPres (fun p => { p with mem := .mute, listenT := none, askT := none, helloT := none })
  let b2 := (b1.discardAll sh).setStream none
  { b2 with host := { b2.host with rejoinPending := false } }

/-- A frame not its own that names the station's number: before MEMBER the station enters MUTE (R22, R63). -/
def Blocks.duplicate (sh : Shop) (b : Blocks) : Blocks :=
  match b.pres.mem with
  | .outside _ | .joining => b.enterMute sh
  | .member | .inert | .mute => b

/-- Whether a frame not its own that names the station's number is told to the host: OUTSIDE, JOINING and as a MEMBER
(R22). -/
def Membership.tellsDuplicate : Membership → Bool
  | .outside _ | .joining | .member => true
  | .inert | .mute => false

/-- REJOIN takes effect (R64; R23, R48, R67). R64 and R191 leave the order of its notices open; in the model the DISCARDED
notices of `discardAll` come first, and the sequencer's response to the grant of 0 with GRANT_CHANGED last, at generation 0.
DESIGN CHOICE, log 6. -/
def Station.rejoinNow (d : Station) : Station :=
  let before := effGrant d.shop d.blk
  let b := d.blk
  let b1 := b.onPres (fun p =>
    { p with mem := .outside .listen, listenT := some (b.now + 1500), askT := none, helloT := none })
  let b2 := ((b1.discardAll Shop.emptied).setStream none).clearAsks
  let b3 := (b2.onAsking (fun a => { a with answered := false })).setSealT none
  let b4 := { b3 with host := { b3.host with rejoinPending := false } }
  { shop := Shop.emptied, blk := b4.grantReport before Shop.emptied }

end Sys2Proof.Machine
end

