-- ==== Sys2Proof/Machine/Line.lean ====
section
/-! DEFINITION. The line controller's steps (01): the receiver's states and discards, the start, the loss, the failure
and the completion of a sending, breaks, and REJOIN waiting for an emission to end. -/

namespace Sys2Proof.Machine

/-- The line controller's state is changed. -/
def Blocks.onLine (f : Line → Line) (b : Blocks) : Blocks := { b with line := f b.line }

/-- The station is on the line: it is not INERT (R50). -/
def Blocks.onAir (b : Blocks) : Bool := b.pres.mem != .inert

/-! ## Receiving -/

/-- A frame is discarded and the receiver enters WAIT_IDLE (R8, R10). -/
def Line.discard (r : Discard) (l : Line) : Line := { l with rx := .waitIdle, lastDiscard := some r }

/-- The receiver is in FRAME. -/
def Rx.inFrame : Rx → Bool
  | .frame _ => true
  | .waitIdle | .ready | .skip => false

/-- Idle is read (R2, R7, R9): the receiver is READY, and a frame in progress is discarded as TIMEOUT. -/
def Line.idleRead (l : Line) : Line :=
  if l.inBreak || l.halting then l
  else
    { l with
      idle := true, rx := .ready, badStop := false
      lastDiscard := if l.rx.inFrame then some .timeout else l.lastDiscard }

/-- The time limit expires (R9). -/
def Line.timeLimitRuns (l : Line) : Line := if l.rx.inFrame then l.discard .timeout else l

/-- What a character of a frame comes to (R8, R10, R11). -/
inductive Heard where
  | malformed | badCheck | more | skips | done
  deriving DecidableEq, Repr

/-- The checks of R8 on the character just taken in, the folded sum (R10) and the skip of R11; `l` holds the
characters so far, HEAD first. -/
def hearFrame (station : Nat) (l : List Byte) : Heard :=
  match l with
  | [] => .malformed
  | [h] => if within 1 7 (h.toNat / 16) && within 1 15 (h.toNat % 16) then .more else .malformed
  | [h, k] => if (Kind.ofCodes (h.toNat / 16) k.toNat).isSome then .more else .malformed
  | [h, k, t] =>
    if Kind.ofCodes (h.toNat / 16) k.toNat = some .snap then
      if within 1 15 t.toNat then (if t.toNat = station then .more else .skips) else .malformed
    else if t.toNat = 0 then .more
    else .malformed
  | [_, _, _, n] => if n.toNat ≤ 40 then .more else .malformed
  | _ :: _ :: _ :: n :: _ =>
    if l.length < 7 + n.toNat then .more else if foldedSum l = 255 then .done else .badCheck

/-- A frame off the line: its kind, sender, target, GEN and payload (R4). -/
structure Taken where
  kind : Kind
  sender : Nat
  target : Nat
  gen : Word16
  payload : List Byte
  deriving DecidableEq, Repr

/-- The frame that a whole run of characters carries (R4). -/
def parseFrame (l : List Byte) : Option Taken :=
  match l with
  | h :: k :: t :: n :: g1 :: g0 :: rest =>
    match Kind.ofCodes (h.toNat / 16) k.toNat with
    | some kind =>
      some
        { kind := kind, sender := h.toNat % 16, target := t.toNat, gen := BitVec.ofNat 16 (be16 g1 g0)
          payload := rest.take n.toNat }
    | none => none
  | _ => none

/-! ## Sending -/

/-- A frame that may start (R16): a change frame only while the replica is CURRENT. -/
def OutEntry.mayStart (sh : Shop) (e : OutEntry) : Bool := !e.frame.kind.isChange || sh.current

/-- The GEN a frame goes out with (R16). -/
def sentGen (sh : Shop) (k : Kind) : Word16 := if k.isChange then sh.gen + 1 else sh.gen

/-- The conditions for a start but the queue's (R16, R51). -/
def Blocks.mayTransmit (b : Blocks) : Bool :=
  b.line.idle && !b.line.yielding && b.line.restT.isNone && b.pres.mem.sends && b.line.emitting.isNone

/-- The first entry in queue order that may start becomes IN_EMISSION. -/
def emitFirst (sh : Shop) : List OutEntry → List OutEntry
  | [] => []
  | e :: rest => if e.mayStart sh then { e with inEmission := true } :: rest else e :: emitFirst sh rest

/-- The first frame in queue order that may start goes out (R16; log 11). -/
def Blocks.transmit (sh : Shop) (b : Blocks) : Blocks :=
  if b.mayTransmit then
    match b.line.queue.find? (OutEntry.mayStart sh) with
    | none => b
    | some e =>
      b.onLine (fun l =>
        { l with
          queue := emitFirst sh l.queue, idle := false, txDone := none
          tx := frameChars b.pres.station (sentGen sh e.frame.kind) e.frame })
  else b

/-- A send failure is counted; the eighth posts LINE_FAULT and starts a line rest (R20). -/
def Blocks.sendFailed (a : Attempt) (b : Blocks) : Blocks :=
  if b.line.failures < 7 then b.onLine (fun l => { l with failures := l.failures + 1 })
  else (b.onLine (fun l => { l with failures := 0, restT := b.after 1000 })).post (.lineFault a)

/-- Withdrawals that were refused and whose attempt has failed are made again (R46, R114, R115), and a SNAP stopped by a
break is refreshed (R34). -/
def Blocks.afterAttempt (a : Attempt) (e : OutEntry) (sh : Shop) (b : Blocks) : Blocks :=
  match e.frame.kind with
  | .snap => if a = .broke then b.refreshStream sh else b
  | .rebase => if e.again && a != .lost then b.withdrawRebase else b
  | .budget =>
    if e.again && b.plant.band == some .halt then (b.withdraw .plant isBudget).plantCompare sh
    else if e.again && b.plant.published != some (budgetValue e.frame) then b.plantCompare sh
    else b
  | .flowAsk | .flowDrop | .join | .gone | .slabAdd | .claim | .release | .reclaim | .consume | .scrap | .freeOrphan
  | .jobOpen | .jobClose | .costReport | .hello | .syncAsk => b

/-- An attempt ends without completing (R17, R18): its entry returns to WAITING at its place. -/
def Blocks.attemptEnds (a : Attempt) (sh : Shop) (b : Blocks) : Blocks :=
  match b.line.emitting with
  | none => b
  | some e =>
    let b1 := b.onLine Line.backToWaiting
    (if a = .lost then b1 else b1.sendFailed a).afterAttempt a e sh

/-- A completed SYNC_ASK starts the ask timer (R30). -/
def Blocks.askSent (sh : Shop) (b : Blocks) : Blocks := if sh.current then b else b.restartAskT

/-- The HELLO interval restarts at the completion of any own frame (R58). -/
def Blocks.ownCompleted (b : Blocks) : Blocks :=
  if b.pres.helloT.isSome then b.onPres (fun p => { p with helloT := b.after 1000 }) else b

/-- Whether the receiver hands an own frame on: every one but a SNAP to another station (R11, R12). -/
def handedOn (station : Nat) (f : Frame) : Bool := f.kind != .snap || f.target == station

/-- The attempt completes (R19). -/
def Blocks.completes (sh : Shop) (b : Blocks) : Blocks :=
  match b.line.emitting with
  | none => b
  | some e =>
    let done := if handedOn b.pres.station e.frame then some e.frame.kind else none
    let b1 := (b.onLine (fun l => { l.dropEmitted with failures := 0, yielding := true, txDone := done })).ownCompleted
    match e.frame.kind with
    | .syncAsk => b1.askSent sh
    | .snap => b1.snapCompleted sh e.frame
    | .budget | .flowAsk | .flowDrop | .join | .gone | .rebase | .slabAdd | .claim | .release | .reclaim | .consume
    | .scrap | .freeOrphan | .jobOpen | .jobClose | .costReport | .hello => b1

/-- A REJOIN answered OK takes effect once no frame is in emission and the completed one has been taken (R23, R64). -/
def Station.settleRejoin (d : Station) : Station :=
  if d.blk.host.rejoinPending && d.blk.line.emitting.isNone && d.blk.line.txDone.isNone then d.rejoinNow else d

/-! ## Breaks -/

/-- The receiver and the transmitter at a break event (R3, R18): an incoming frame is BROKEN, also one whose dominant
stop bit began the run. R19 does not say whether the first dominant bit of a break is another station's start bit; the
model takes it for none and leaves the yield flag as it is. DESIGN CHOICE, log 37. -/
def Line.broken (l : Line) : Line :=
  let l1 := { l with inBreak := true, idle := false, txDone := none, badStop := false }
  if l.rx.inFrame || l.badStop then l1.discard .broken else { l1 with rx := .waitIdle }

/-- The plant unit's news of a break, by the replica state at the break: every ledger but an EMPTY replica's, which
cannot change, has lost its budget (R94, R96; log 22). -/
def Blocks.breakReport (at_ : ReplicaState) (sh : Shop) (b : Blocks) : Blocks :=
  match at_ with
  | .current | .stale | .building => b.ledgerReport sh
  | .empty => b

/-- The stream at a break event (R34, R36): a ledger section in progress restarts it, and a SNAP that waits is
refreshed (log 12). -/
def Blocks.streamBroken (sh : Shop) (b : Blocks) : Blocks := b.streamAfter false true sh

/-- A break event (R3): the line, the sequencer, the ledger, the stream and the plant unit. R3 gives its parts no order; the
model's is the attempt's end (with LINE_FAULT and a BUDGET's replacement), the grant and GRANT_CHANGED, the stream, the plant
unit's news of the ledger, which leaves the last sent value. DESIGN CHOICE, logs 6 and 45. -/
def Station.breakEvent (d : Station) : Station :=
  let before := effGrant d.shop d.blk
  match d.shop.onBreak with
  | some sh =>
    let b := (d.blk.onLine Line.broken).attemptEnds .broke sh
    { shop := sh
      blk := (((b.setGrant sh 0).grantReport before sh).streamBroken sh).breakReport d.shop.state sh }
  | none =>
    let sh := d.shop.brokenAside
    let b := ((d.blk.onLine Line.broken).attemptEnds .broke sh).setGrant sh 0
    { shop := sh, blk := (((b.breakReport d.shop.state sh).setPhase .asking).setAskT none).ask sh }

/-- The HALT break asked for by the plant unit (R21): dropped when INERT, MUTE, listening or halting; an emission
ends as a BREAK attempt. -/
def Blocks.haltBreak (sh : Shop) (b : Blocks) : Blocks :=
  match b.pres.mem with
  | .inert | .mute | .outside .listen => b
  | .outside .asking | .outside .building | .joining | .member =>
    if b.line.halting then b
    else (b.onLine (fun l => { l with halting := true, idle := false })).attemptEnds .broke sh

/-- The band, the turbidity flag and the published value after a scan, with the entry into HALT (R109, R110, R115). -/
def Blocks.plantScan (ma mb : Nat) (sh : Shop) (b : Blocks) : Blocks :=
  let band := bandAfter b.plant.band (levelOf ma)
  let b1 := b.onPlant (fun p => { p with band := some band, turbid := decide (600 < mb) })
  let b2 :=
    if band = .halt ∧ b.plant.band ≠ some .halt ∧ !b.plant.standby then
      ((b1.onPlant (fun p => { p with lastSent := 0 })).haltBreak sh).withdrawBudget
    else b1
  b2.republish sh

/-- An analog reading completes (R103 to R105). R104 to R106 name no exception for INERT, and R117 hands no value to any
block there; the model makes none of the tests of 6.2 in an INERT CUTTER, so its derate flag and its jam and dry timers and
conditions stay as full reset left them. DESIGN CHOICE, log 48. -/
def Blocks.analog (v : Nat) (sh : Shop) (b : Blocks) : Blocks :=
  let out := b.meas.reading v
  let b1 := { b with meas := out.1 }
  if out.2 then
    match out.1.filteredBoth with
    | none => b1
    | some (ma, mb) => if b1.saws then b1.cutterScan ma mb else if b1.plants then b1.plantScan ma mb sh else b1
  else b1

end Sys2Proof.Machine
end

