-- ==== Sys2Proof/Machine/Frames.lean ====
section
/-! DEFINITION. Taking a frame off the line (R12): its head at the presence unit, a change frame at the table unit with
the news that each block is told (R28), and HELLO, SYNC_ASK, SNAP and REBASE. -/

namespace Sys2Proof.Machine

/-! ## Heads -/

/-- A station is heard at this moment: its time is set (R57), and this station's GONE naming it is withdrawn (R60). -/
def Blocks.hear (s : Nat) (b : Blocks) : Blocks :=
  (b.onPres (fun p => { p with heard := Slots.set s b.now p.heard })).withdraw .presence (isGoneOf s)

/-- A skipped SNAP's head is reported (R11): its sender is heard (R57), and when that is another station, a SNAP has been
heard (R31) and a lower server keeps its asker (R37). -/
def Blocks.seenHead (sender target : Nat) (b : Blocks) : Blocks :=
  if sender = b.pres.station then b.hear sender else ((b.hear sender).snapHeardNow).rivalSnap sender target

/-! ## What the blocks are told after a change frame (R28; log 6) -/

/-- A change frame that a CURRENT replica has applied: whether it is this station's own, what it carries, the outcome,
and the replica before it. -/
structure Applied where
  own : Bool
  frame : Taken
  change : Option Change
  out : Judged
  before : Replica
  deriving DecidableEq, Repr

/-- The effect was taken. -/
def Applied.taken (a : Applied) : Bool := a.out.taken

/-- The stream after the frame (R34, R36; log 13). -/
def Blocks.streamNews (a : Applied) (sh : Shop) (b : Blocks) : Blocks :=
  match a.change with
  | some ch =>
    b.streamAfter (a.taken && ch.touchesMembers) (a.taken && ch.touchesLedger a.frame.sender a.before) sh
  | none => b.streamAfter false false sh

/-- A JOIN of a station that is a member already: a leave and an entry (R55). -/
def Applied.reenters (a : Applied) : Bool :=
  match a.change with
  | some (.join _) => memberOf a.frame.sender a.before
  | _ => false

/-- The leave of a JOIN that is a leave and an entry is told before the entry (R55): the plant unit hears of the plant's
absence and the cost unit of the shrunk pending sets and of the jobs that they close, while the removed entry has been told
by the grant report. The orphaned slab moves no block by itself; the entry has its holder reclaim it (R139). -/
def Blocks.leaveNews (a : Applied) (sh : Shop) (b : Blocks) : Blocks :=
  if a.reenters then (b.plantAbsent a.before sh).costAfter a.before sh else b

/-- The presence unit is told of a JOIN or a GONE taken (R54, R60, R62). -/
def Blocks.presenceNews (a : Applied) (sh : Shop) (b : Blocks) : Blocks :=
  match a.change with
  | some (.join _) => if a.own && b.pres.mem == .joining then b.enterMember sh else b
  | some (.gone s) =>
    if a.taken then
      let b1 := if a.own then b else b.withdraw .presence (isGoneOf s)
      if s = b.pres.station ∧ b.isMember then b1.rejoinShop sh.gen else b1
    else b
  | _ => b

/-- The plant unit is told of BUDGETs and of the plant's absence by a GONE (R89, R96 to R98). -/
def Blocks.plantNews (a : Applied) (sh : Shop) (b : Blocks) : Blocks :=
  match a.change with
  | some (.budget v) =>
    if a.own then b.budgetOutcome v a.out.void sh else if a.taken then b.rivalBudget a.before sh else b
  | some (.gone _) => b.plantAbsent a.before sh
  | _ => b

/-- The sequencer is told the outcome of its own FLOW_ASK and FLOW_DROP (R101, R147). -/
def Blocks.sawNews (a : Applied) (sh : Shop) (b : Blocks) : Blocks :=
  match a.change with
  | some (.flowAsk _) => if a.own && !a.taken then b.askCheck sh else b
  | some .flowDrop => if a.own && a.taken then b.askCheck sh else b
  | _ => b

/-- The planner is told the outcome of its own frames, of rival claims, of jobs and of stock news (R28, R86, R122). -/
def Blocks.plannerNews (a : Applied) (sh : Shop) (b : Blocks) : Blocks :=
  if b.plans then
    let b1 :=
      match a.change with
      | some (.claim i) =>
        if a.own then b.claimOutcome sh i a.taken else if a.taken then b.rivalClaim sh i else b
      | some (.release i) => if a.own then b.releaseOutcome sh i a.taken else b
      | some (.reclaim i) => if a.own then b.reclaimOutcome sh i a.taken else b
      | some (.consume i _ _ _) => if a.own then b.consumeOutcome sh i a.taken else b
      | some (.jobOpen n) => if a.taken && b.planner.pieces.any (fun p => p.job == n) then b.searchOrLook sh else b
      | some (.jobClose n) => if a.taken then b.jobLeft sh n else b
      | _ => b
    if a.out.news.isEmpty then b1 else b1.search sh
  else b

/-- The cost unit is given the figures of its own CONSUME, before the planner's settlement (R85, R176). -/
def Blocks.figuresNews (a : Applied) (b : Blocks) : Blocks :=
  match a.change with
  | some (.consume _ _ _ _) =>
    if a.own then
      match a.out.figures with
      | some f => b.onCost (CostUnit.takeFigures f)
      | none => b.onCost CostUnit.consumeVoid
    else b
  | _ => b

/-- The cost unit is told the outcome of its own COST_REPORT, of the job table's moves, unless `leaveNews` has told them,
and of a JOB_CLOSE (R28, R179, R180). -/
def Blocks.costNews (a : Applied) (sh : Shop) (b : Blocks) : Blocks :=
  let b1 :=
    match a.change with
    | some (.costReport n _) =>
      if a.own then
        let b0 := b.reportOutcome n a.taken sh.gen
        if b0.cost.lines.length < b.cost.lines.length then b0.search sh else b0
      else b
    | _ => b
  let b2 := if a.reenters then b1 else b1.costAfter a.before sh
  match a.change with
  | some (.jobClose n) => if a.taken then b2.zeroCheck sh n else b2
  | _ => b2

/-- The reason of a void SLAB_ADD (R73). -/
def addReason : VoidReason → RefusalReason
  | .idPresent => .idPresent
  | .payload | .notPlant | .otherPlant | .notMember | .noEntry | .tableFull | .condition | .active | .notOpen => .tableFull

/-- The host port posts the outcome of its own SLAB_ADD (R74), and the refusals of JOB_OPEN and JOB_CLOSE (R166,
R167). -/
def Blocks.hostNews (a : Applied) (b : Blocks) : Blocks :=
  if a.own then
    match a.change, a.out.void with
    | some (.slabAdd serial _ _ _ _ _ _), none =>
      b.post (.slabAdded { origin := b.pres.station, serial := serial } (a.out.slot.getD 0))
    | some (.slabAdd serial _ _ _ _ _ _), some v =>
      b.post (.addRefused { origin := b.pres.station, serial := serial } (addReason v))
    | some (.jobOpen n), some .active => b.post (.jobRefused n .jobOpen .active)
    | some (.jobOpen n), some _ => b.post (.jobRefused n .jobOpen .tableFull)
    | some (.jobClose n), some _ => b.post (.jobRefused n .jobClose .notOpen)
    | _, _ => b
  else b

/-- Every block is told, each reading the replica as it stands after the frame (R28; log 6). -/
def Blocks.tellAll (a : Applied) (grant : Nat) (sh : Shop) (b : Blocks) : Blocks :=
  let b1 := (((b.streamNews a sh).grantReport grant sh).sawNews a sh).leaveNews a sh
  let b2 := (b1.presenceNews a sh).plantNews a sh
  (((b2.figuresNews a).plannerNews a sh).costNews a sh).hostNews a

/-! ## Change frames -/

/-- A CURRENT replica applies a change frame whose GEN is its generation + 1 (R26). -/
def Station.apply (own : Bool) (f : Taken) (d : Station) : Station :=
  let out := judgeFrame (Ctx.whole f.gen) f.sender f.kind f.payload d.shop.rep
  let sh := { d.shop with gen := f.gen, rep := out.rep }
  let a : Applied := { own := own, frame := f, change := parseChange f.kind f.payload, out := out, before := d.shop.rep }
  { shop := sh, blk := d.blk.tellAll a (effGrant d.shop d.blk) sh }

/-- A change frame at each replica state (R26, R27, R40). -/
def Station.takeChange (own : Bool) (f : Taken) (d : Station) : Station :=
  match d.shop.state with
  | .current => if f.gen = d.shop.gen + 1 then d.apply own f else d.gap f.gen
  | .building =>
    match d.shop.build with
    | none => d
    | some x =>
      match d.shop.buildChange f.sender f.kind f.gen f.payload x with
      | some sh => { d with shop := sh }
      | none => d.abandonBuild
  | .empty | .stale => d

/-! ## SYNC_ASK, SNAP and REBASE -/

/-- A SYNC_ASK from another station (R32, R46); in MUTE and in the listen window no stream is started (R48, R52). -/
def Blocks.takeSyncAsk (sender : Nat) (sh : Shop) (b : Blocks) : Blocks :=
  let b1 := b.onAsking (fun a => { a with askHeard := Slots.set sender b.now a.askHeard })
  if sh.current && b.asking.stream.isNone && b.pres.mem.sends then b1.startStream sh sender else b1

/-- A build has begun (R39): the ask timer restarts, but in MUTE (log 52), a waiting SYNC_ASK is withdrawn and the phase is
BUILDING. -/
def Blocks.buildBegun (b : Blocks) : Blocks := ((b.restartAskT).withdraw .table isSyncAsk).setPhase .building

/-- A SNAP addressed to this station whose replica is not CURRENT (R30, R31, R39, R40, R44). -/
def Station.takeSnapHere (f : Taken) (d : Station) : Station :=
  let b := ((d.blk.clearAsks).onAsking (fun a => { a with answered := true })).withdrawRebase
  match d.shop.onSnap f.sender f.gen f.payload with
  | .ignored => { d with blk := b }
  | .restartAsk => { d with blk := b.restartAskT }
  | .begun sh => { shop := sh, blk := b.buildBegun }
  | .rebuilt sh => { shop := sh, blk := b.buildBegun }
  | .fed sh => { shop := sh, blk := b.restartAskT }
  | .abandoned sh => { shop := sh, blk := ((b.setPhase .asking).setAskT none).ask sh }
  | .completed sh => { shop := sh, blk := b.becomeCurrent (effGrant d.shop d.blk) sh }

/-- A SNAP addressed to this station is taken (R31, R37). -/
def Station.takeSnap (f : Taken) (d : Station) : Station :=
  let d1 := { d with blk := (d.blk.snapHeardNow).rivalSnap f.sender f.target }
  if d.shop.current then d1 else d1.takeSnapHere f

/-- Its own REBASE (R47): the replica, or the one set aside, becomes CURRENT as it stands. -/
def Station.rebaseOwn (d : Station) : Station :=
  if d.shop.current then d
  else
    let sh := { d.shop.abandoned with state := .current }
    { shop := sh, blk := d.blk.becomeCurrent (effGrant d.shop d.blk) sh }

/-- Another station's REBASE (R47). Whether an ask timer that runs at an EMPTY or STALE replica with no build is stopped no
rule says: it is, as at an abandoned build, and the new SYNC_ASK starts it. DESIGN CHOICE, log 9. -/
def Station.rebaseOther (gen : Word16) (d : Station) : Station :=
  if d.shop.current then { d with blk := d.blk.clearAsks }.gap gen
  else
    let sh := d.shop.abandoned
    let b := if d.shop.build.isSome then d.blk.setPhase .asking else d.blk
    { shop := sh, blk := ((b.clearAsks.withdrawRebase).setAskT none).ask sh }

/-! ## Taking a frame -/

/-- What the kind of a taken frame does (R12): change frames, HELLO, SYNC_ASK, SNAP and REBASE. -/
def Station.takeKind (own : Bool) (f : Taken) (d : Station) : Station :=
  match f.kind with
  | .hello => d
  | .syncAsk => if own then d else { d with blk := d.blk.takeSyncAsk f.sender d.shop }
  | .snap => if own then d else d.takeSnap f
  | .rebase => if own then d.rebaseOwn else d.rebaseOther f.gen
  | .budget | .flowAsk | .flowDrop | .join | .gone | .slabAdd | .claim | .release | .reclaim | .consume | .scrap
  | .freeOrphan | .jobOpen | .jobClose | .costReport => d.takeChange own f

/-- A taken frame that is not the station's own: its head at the presence unit (R22, R57), and a peer's start bit that
ends the yield (R19). R12 needs no order between the presence unit and the table unit; in the model a duplicate puts the
station in MUTE, with the notices of the frames that this discards, before the frame is applied. DESIGN CHOICE, log 6. -/
def Blocks.peerHead (f : Taken) (sh : Shop) (b : Blocks) : Blocks :=
  let b1 := (if b.line.emitting.isNone then b.onLine (fun l => { l with yielding := false }) else b).hear f.sender
  if f.sender = b.pres.station then b1.duplicate sh else b1

/-- The sending of the station's own frame that this taken frame completes (R12, R19; log 2). -/
def Station.completeFor (f : Taken) (d : Station) : Station :=
  match d.blk.line.emitting with
  | some e =>
    if f.sender = d.blk.pres.station ∧ e.frame.kind = f.kind then { d with blk := d.blk.completes d.shop } else d
  | none => d

/-- Whether a taken frame is the station's own: its sending has just completed (R12; log 2). -/
def Blocks.isOwn (f : Taken) (b : Blocks) : Bool := f.sender == b.pres.station && b.line.txDone == some f.kind

/-- The receiver after a taken frame: it waits for idle (R10). -/
def Line.frameTaken (l : Line) : Line := { l with rx := .waitIdle, idle := false, txDone := none, badStop := false }

/-- DUPLICATE_STATION is posted where the frame taken shows a duplicate number (R22), judged on the state before it. -/
def Blocks.tellDuplicate (own : Bool) (f : Taken) (before b : Blocks) : Blocks :=
  if !own && f.sender == before.pres.station && before.pres.mem.tellsDuplicate then b.post (.duplicateStation f.kind) else b

/-- A frame is taken (R10, R12); it waits for no further event, so a REJOIN that waited for it follows (R23). A notice whose
cause is a frame comes after the frame's effect (R192), and so does DUPLICATE_STATION; its place behind the notices of that
effect (GRANT_CHANGED, STALE, SYNCED and the others) R12 and R191 leave open. DESIGN CHOICE, log 6. -/
def Station.takeFrame (f : Taken) (d : Station) : Station :=
  let d1 := d.completeFor f
  let own := d1.blk.isOwn f
  let b1 := d1.blk.onLine Line.frameTaken
  let b2 := if own then b1 else b1.peerHead f d1.shop
  let d2 := Station.takeKind own f { d1 with blk := b2 }
  { d2 with blk := Blocks.tellDuplicate own f b1 d2.blk }.settleRejoin

/-- A frame whose characters break R4 or R5 is discarded as MALFORMED (R8; log 24). -/
def Taken.ok (f : Taken) : Bool :=
  within 1 15 f.sender && f.payload.length ≤ 40 && (if f.kind = .snap then within 1 15 f.target else f.target == 0)

/-- A frame that is not taken has begun with a start bit (R2, R19): idle ends, and a peer's ends the yield. -/
def Blocks.startBit (sender : Nat) (b : Blocks) : Blocks :=
  b.onLine (fun l =>
    { l with idle := false, badStop := false, yielding := l.yielding && !(l.emitting.isNone && sender != b.pres.station) })

/-- A whole frame arrives (log 1): taken, or discarded as MALFORMED (R8), or skipped when it is directed to another
station (R11). -/
def Station.frameArrives (f : Taken) (d : Station) : Station :=
  if d.blk.onAir then
    if f.ok then
      if f.kind = .snap ∧ f.target ≠ d.blk.pres.station then
        { d with
          blk := ((d.blk.startBit f.sender).onLine (fun l => { l with rx := .skip })).seenHead f.sender f.target }
      else d.takeFrame f
    else { d with blk := (d.blk.startBit f.sender).onLine (Line.discard .malformed) }
  else d

/-! ## Characters -/

/-- A complete character (R7, R8, R10, R11): the frame it completes, if it does, and the line controller after it. A
dominant stop bit inside a frame is FRAMING until its run grows into a break (R3). -/
def Blocks.character (data : Byte) (mark stop : Bool) (b : Blocks) : Blocks × Option Taken :=
  match b.line.rx with
  | .waitIdle | .skip => (b, none)
  | .ready =>
    if stop && mark then
      match hearFrame b.pres.station [data] with
      | .more => (b.onLine (fun l => { l with rx := .frame [data] }), none)
      | .malformed | .badCheck | .skips | .done => (b.onLine (Line.discard .malformed), none)
    else (b.onLine (fun l => { l with rx := .waitIdle }), none)
  | .frame l =>
    if !stop then (b.onLine (fun x => { x.discard .framing with badStop := true }), none)
    else if mark then (b.onLine (Line.discard .malformed), none)
    else
      let chars := l ++ [data]
      match hearFrame b.pres.station chars with
      | .more => (b.onLine (fun x => { x with rx := .frame chars }), none)
      | .malformed => (b.onLine (Line.discard .malformed), none)
      | .badCheck => (b.onLine (Line.discard .check), none)
      | .skips =>
        match parseHead chars with
        | (sender, target) => ((b.onLine (fun x => { x with rx := .skip })).seenHead sender target, none)
      | .done => (b.onLine (fun x => { x with rx := .waitIdle }), parseFrame chars)
where
  parseHead (l : List Byte) : Nat × Nat :=
    match l with
    | h :: _ :: t :: _ => (h.toNat % 16, t.toNat)
    | _ => (0, 0)

/-- The start bit of this character is the station's own (R19): a frame of its own is in emission, or its CHECK, whose
completion has come already, is still to be read (log 33). -/
def Line.readsOwn (l : Line) : Bool := l.emitting.isSome || (l.rx.inFrame && l.txDone.isSome)

/-- A character completes on the line (R1, R2, R7): idle has ended, and another station's start bit, read in whatever
receiver state, ends the yield (R19). -/
def Station.receive (data : Byte) (mark stop : Bool) (d : Station) : Station :=
  if d.blk.onAir then
    let b := d.blk.onLine (fun l =>
      { l with
        idle := false, badStop := false
        yielding := l.yielding && l.readsOwn })
    match b.character data mark stop with
    | (b1, none) => { d with blk := b1 }
    | (b1, some f) => { d with blk := b1 }.takeFrame f
  else d

end Sys2Proof.Machine
end

