-- ==== Sys2Proof/Machine/Reset.lean ====
section
/-! DEFINITION. Full reset (R49): every block at its full-reset values (R23, R48, R67, R102, R117, R118, R140, R164,
R182, R193), from the seven strap pins and the levels of SEL and STOP, and the INERT station of R50. -/

namespace Sys2Proof.Machine

/-- The role strap: low is CUTTER, high is PLANT (R49). -/
def roleOfPin (pin : Bool) : Role := if pin then .plant else .cutter

/-- Station number 0 or the invalid rate code makes the station INERT (R50). -/
def strapsInert (station rate : Nat) : Bool := station == 0 || rate == 0

/-- The line controller after full reset (R23). -/
def Line.afterReset : Line :=
  { rx := .waitIdle, idle := false, inBreak := false, halting := false, queue := [], waitList := [], backlog := []
    nextOrder := 0, tx := [], txDone := none, failures := 0, yielding := false, restT := none, lastDiscard := none
    badStop := false }

/-- The ask bookkeeping, the heard record and the stream after full reset (R48). -/
def Asking.afterReset : Asking :=
  { count := 0, failed := false, answered := false, snapHeard := none, askHeard := [], stream := none }

/-- The presence unit after full reset (R67). -/
def Presence.afterReset (station : Nat) (role : Role) (rate : Nat) : Presence :=
  { station := station, role := role, rate := rate
    mem := if strapsInert station rate then .inert else .outside .listen
    listenT := if strapsInert station rate then none else some 1500
    askT := none, helloT := none, heard := [], serial := 1 }

/-- The planner after full reset (R140). -/
def Planner.afterReset : Planner := { pieces := [], nextSub := 1, plan := none, sealT := none }

/-- The saw sequencer after full reset (R164), the feed's rate and period at 0 (DESIGN CHOICE, log 41). -/
def Saw.afterReset : Saw :=
  { st := .idle, fault := none, plan := none, cur := 0, entered := false, resumeCut := 0, resumeEntered := false
    started := false, enc := 0, cmd := 0, feedOn := false, feedRate := 0, pulsePeriod := 0, blade := false, valve := 0
    atSpeed := false, grant := 0, waterWanted := false, spinT := none, holdT := none, idleSpinT := none
    dropT := none }

/-- The measurement unit after full reset (R117); the flow window runs in the PLANT role, INERT excepted (R108). -/
def Meas.afterReset (window : Bool) : Meas :=
  { sampleT := 100, scan := none, ma := 0, mb := 0, maHist := [], mbHist := [], missed := 0, derate := false
    jamT := none, jam := false, dryT := none, dry := false, valveOpen := false
    windowT := if window then some 1000 else none, pulses := 0, window := 0 }

/-- The plant unit after full reset (R118). -/
def PlantUnit.afterReset : PlantUnit :=
  { band := none, turbid := false, overCount := 0, underCount := 0, correction := none, published := none
    lastSent := 0, spacingT := none, standby := false }

/-- The cost unit after full reset (R182); its clock does not run in an INERT station. -/
def CostUnit.afterReset (clock : Bool) : CostUnit :=
  { lines := [], clockT := if clock then some 1000 else none, first := none, figures := none, settled := none
    reports := [] }

/-- The host port after full reset (R193, R200). -/
def HostPort.afterReset : HostPort :=
  { exchange := .deselected, reply := none, notices := [], lost := 0, attn := false, cursor := 0
    rejoinPending := false, planPart := 0 }

/-- The part after full reset, from the straps and the levels of SEL and STOP; the count of free values taken goes on
(log 36). -/
def Station.afterReset (station : Nat) (role : Role) (rate : Nat) (selLow stop : Bool) (draws : Nat) : Station :=
  let inert := strapsInert station rate
  { shop := Shop.emptied
    blk :=
      { now := 0, draws := draws, selLow := selLow, stop := stop, line := Line.afterReset, asking := Asking.afterReset
        pres := Presence.afterReset station role rate, planner := Planner.afterReset, saw := Saw.afterReset
        meas := Meas.afterReset (role == .plant && !inert), plant := PlantUnit.afterReset
        cost := CostUnit.afterReset (!inert), host := HostPort.afterReset } }

/-! ## A command's outcome -/

/-- A command that changes the part: a next state, the queue as it stands. -/
def State.run (f : Station → Station) (s : State) : Host.Outcome State Fault Refusal := .next { s with dev := f s.dev }

/-- A change of the blocks, reading the replica. -/
def Station.onBlk (f : Shop → Blocks → Blocks) (d : Station) : Station := { d with blk := f d.shop d.blk }

/-- FULL_RESET (R49). -/
def execFullReset (station : BitVec 4) (rolePin : Bool) (rate : BitVec 2) (s : State) :
    Host.Outcome State Fault Refusal :=
  s.run (fun d => Station.afterReset station.toNat (roleOfPin rolePin) rate.toNat d.blk.selLow d.blk.stop
    d.blk.draws)

end Sys2Proof.Machine
end

