-- ==== Sys2Proof/Machine/ShopLine.lean ====
section
/-! DEFINITION. The commands of the shop line's events (01). -/

namespace Sys2Proof.Machine

/-- A step of the line controller of a station that is not INERT (R23, R50). -/
def Station.lineStep (f : Line → Line) (d : Station) : Station :=
  if d.blk.onAir then { d with blk := d.blk.onLine f } else d

/-- RECEIVE_CHARACTER (R1, R7 to R12). -/
def execReceiveCharacter (data : Byte) (mark stop : Bool) (s : State) : Host.Outcome State Fault Refusal :=
  s.run (Station.receive data mark stop)

/-- LINE_IDLE (R2, R7, R9). -/
def execLineIdle (s : State) : Host.Outcome State Fault Refusal := s.run (Station.lineStep Line.idleRead)

/-- FRAME_TIME_LIMIT (R9). -/
def execFrameTimeLimit (s : State) : Host.Outcome State Fault Refusal := s.run (Station.lineStep Line.timeLimitRuns)

/-- BREAK_EVENT (R3): once for a dominant run. -/
def execBreakEvent (s : State) : Host.Outcome State Fault Refusal :=
  s.run (fun d => if d.blk.onAir && !d.blk.line.inBreak then d.breakEvent.settleRejoin else d)

/-- BREAK_END (R3): the receiver waits for idle, counted from this moment. -/
def execBreakEnd (s : State) : Host.Outcome State Fault Refusal :=
  s.run (Station.lineStep (fun l =>
    if l.inBreak then { l with inBreak := false, idle := false, rx := .waitIdle } else l))

/-- HALT_BREAK_END (R21). -/
def execHaltBreakEnd (s : State) : Host.Outcome State Fault Refusal :=
  s.run (Station.lineStep (fun l => { l with halting := false }))

/-- TRANSMIT_START (R16). -/
def execTransmitStart (s : State) : Host.Outcome State Fault Refusal :=
  s.run (Station.onBlk (fun sh b => b.transmit sh))

/-- ARBITRATION_LOST (R17): the outcome LOST stands. -/
def execArbitrationLost (s : State) : Host.Outcome State Fault Refusal :=
  s.run (fun d => (d.onBlk (fun sh b => b.attemptEnds .lost sh)).settleRejoin)

/-- COLLISION (R18): the attempt is settled as a COLLISION attempt. -/
def execCollision (s : State) : Host.Outcome State Fault Refusal :=
  s.run (fun d => (d.onBlk (fun sh b => b.attemptEnds .collision sh)).settleRejoin)

/-- SEND_COMPLETED (R19). -/
def execSendCompleted (s : State) : Host.Outcome State Fault Refusal :=
  s.run (fun d => (d.onBlk (fun sh b => b.completes sh)).settleRejoin)

/-- YIELD_CLEAR (R19). -/
def execYieldClear (s : State) : Host.Outcome State Fault Refusal :=
  s.run (Station.lineStep (fun l => { l with yielding := false }))

/-- LINE_REST_EXPIRY (R20). -/
def execLineRestExpiry (s : State) : Host.Outcome State Fault Refusal :=
  s.run (Station.onBlk (fun _ b =>
    match b.line.restT with
    | none => b
    | some t => (b.atDeadline t).onLine (fun l => { l with restT := none })))

end Sys2Proof.Machine
end

