-- ==== Sys2Proof/Machine/FrameRows.lean ====
section
/-! DEFINITION. The commands of the frames that arrive off the line, each whole (R12; log 1). -/

namespace Sys2Proof.Machine

/-- A frame arrives with its fields (R4). -/
def State.frameIn (k : Kind) (sender : BitVec 4) (target : Nat) (gen : Word16) (payload : List Byte) (s : State) :
    Host.Outcome State Fault Refusal :=
  s.run (Station.frameArrives
    { kind := k, sender := sender.toNat, target := target, gen := gen, payload := payload })

/-- BUDGET (R89). -/
def execBudget (sender : BitVec 4) (gen : Word16) (payload : List Byte) (s : State) :
    Host.Outcome State Fault Refusal :=
  s.frameIn .budget sender 0 gen payload

/-- FLOW_ASK (R90). -/
def execFlowAsk (sender : BitVec 4) (gen : Word16) (payload : List Byte) (s : State) :
    Host.Outcome State Fault Refusal :=
  s.frameIn .flowAsk sender 0 gen payload

/-- FLOW_DROP (R91). -/
def execFlowDrop (sender : BitVec 4) (gen : Word16) (payload : List Byte) (s : State) :
    Host.Outcome State Fault Refusal :=
  s.frameIn .flowDrop sender 0 gen payload

/-- JOIN (R55, R54). -/
def execJoin (sender : BitVec 4) (gen : Word16) (payload : List Byte) (s : State) :
    Host.Outcome State Fault Refusal :=
  s.frameIn .join sender 0 gen payload

/-- GONE (R61, R62). -/
def execGone (sender : BitVec 4) (gen : Word16) (payload : List Byte) (s : State) :
    Host.Outcome State Fault Refusal :=
  s.frameIn .gone sender 0 gen payload

/-- REBASE (R47). -/
def execRebase (sender : BitVec 4) (gen : Word16) (payload : List Byte) (s : State) :
    Host.Outcome State Fault Refusal :=
  s.frameIn .rebase sender 0 gen payload

/-- SLAB_ADD (R73, R74). -/
def execSlabAdd (sender : BitVec 4) (gen : Word16) (payload : List Byte) (s : State) :
    Host.Outcome State Fault Refusal :=
  s.frameIn .slabAdd sender 0 gen payload

/-- CLAIM (R75, R127, R128). -/
def execClaim (sender : BitVec 4) (gen : Word16) (payload : List Byte) (s : State) :
    Host.Outcome State Fault Refusal :=
  s.frameIn .claim sender 0 gen payload

/-- RELEASE (R77, R136). -/
def execRelease (sender : BitVec 4) (gen : Word16) (payload : List Byte) (s : State) :
    Host.Outcome State Fault Refusal :=
  s.frameIn .release sender 0 gen payload

/-- RECLAIM (R79, R139). -/
def execReclaim (sender : BitVec 4) (gen : Word16) (payload : List Byte) (s : State) :
    Host.Outcome State Fault Refusal :=
  s.frameIn .reclaim sender 0 gen payload

/-- CONSUME (R83 to R85, R135). -/
def execConsume (sender : BitVec 4) (gen : Word16) (payload : List Byte) (s : State) :
    Host.Outcome State Fault Refusal :=
  s.frameIn .consume sender 0 gen payload

/-- SCRAP (R82). -/
def execScrap (sender : BitVec 4) (gen : Word16) (payload : List Byte) (s : State) :
    Host.Outcome State Fault Refusal :=
  s.frameIn .scrap sender 0 gen payload

/-- FREE_ORPHAN_FRAME (R80). -/
def execFreeOrphanFrame (sender : BitVec 4) (gen : Word16) (payload : List Byte) (s : State) :
    Host.Outcome State Fault Refusal :=
  s.frameIn .freeOrphan sender 0 gen payload

/-- JOB_OPEN (R166). -/
def execJobOpen (sender : BitVec 4) (gen : Word16) (payload : List Byte) (s : State) :
    Host.Outcome State Fault Refusal :=
  s.frameIn .jobOpen sender 0 gen payload

/-- JOB_CLOSE (R167). -/
def execJobClose (sender : BitVec 4) (gen : Word16) (payload : List Byte) (s : State) :
    Host.Outcome State Fault Refusal :=
  s.frameIn .jobClose sender 0 gen payload

/-- COST_REPORT (R168, R180). -/
def execCostReport (sender : BitVec 4) (gen : Word16) (payload : List Byte) (s : State) :
    Host.Outcome State Fault Refusal :=
  s.frameIn .costReport sender 0 gen payload

/-- HELLO (R57). -/
def execHello (sender : BitVec 4) (gen : Word16) (payload : List Byte) (s : State) :
    Host.Outcome State Fault Refusal :=
  s.frameIn .hello sender 0 gen payload

/-- SYNC_ASK (R32). -/
def execSyncAsk (sender : BitVec 4) (gen : Word16) (payload : List Byte) (s : State) :
    Host.Outcome State Fault Refusal :=
  s.frameIn .syncAsk sender 0 gen payload

/-- SNAP (R31, R39, R40), or its seen head when it is directed to another station (R11). -/
def execSnap (sender target : BitVec 4) (gen : Word16) (payload : List Byte) (s : State) :
    Host.Outcome State Fault Refusal :=
  s.frameIn .snap sender target.toNat gen payload

end Sys2Proof.Machine
end

