-- ==== Sys2Proof/Machine/Timers.lean ====
section
/-! DEFINITION. The commands of the membership timers and of REJOIN (02, 03). An expiry of a timer that does not run
changes nothing (log 3). -/

namespace Sys2Proof.Machine

/-- A timer's expiry: with the timer running, the clock stands at its deadline and the step acts (log 4). -/
def Blocks.onExpiry (timer : Blocks → Option Nat) (act : Nat → Blocks → Blocks) (b : Blocks) : Blocks :=
  match timer b with
  | none => b
  | some t => act t (b.atDeadline t)

/-- An unanswered ask (R30): the count rises, at 3 SYNC_FAILED is posted once and REBASE tested (R46; log 26). -/
def Blocks.unanswered (sh : Shop) (b : Blocks) : Blocks :=
  let b1 := b.onAsking (fun a => { a with count := min 3 (a.count + 1) })
  if b1.asking.count < 3 then b1.ask sh
  else
    let b2 :=
      if b1.asking.failed then b1
      else (b1.post (.syncFailed sh.gen sh.state)).onAsking (fun a => { a with failed := true })
    if b2.qualifies then
      if b2.line.held .table isRebase then b2 else b2.offer .table (mkFrame .rebase [])
    else b2.ask sh

/-- The ask timer expires (R30, R45). -/
def Station.askExpires (d : Station) : Station :=
  match d.blk.pres.askT with
  | none => d
  | some t =>
    let b := (d.blk.atDeadline t).setAskT none
    match d.shop.state with
    | .current => { d with blk := b }
    | .building => { d with blk := b }.abandonBuild
    | .empty | .stale => { d with blk := if b.asking.answered then b.ask d.shop else b.unanswered d.shop }

/-- ASK_TIMER_EXPIRY (R30). -/
def execAskTimerExpiry (s : State) : Host.Outcome State Fault Refusal := s.run Station.askExpires

/-- The listen window ends (R52; log 8). -/
def Blocks.listenEnds (sh : Shop) (b : Blocks) : Blocks :=
  let b1 := b.onPres (fun p => { p with listenT := none })
  if b1.pres.mem = .outside .listen then
    match sh.state with
    | .current => b1.offerJoin
    | .building => b1.setMem (.outside .building)
    | .empty | .stale => (b1.setMem (.outside .asking)).ask sh
  else b1

/-- LISTEN_TIMER_EXPIRY (R52). -/
def execListenTimerExpiry (s : State) : Host.Outcome State Fault Refusal :=
  s.run (Station.onBlk (fun sh b => b.onExpiry (·.pres.listenT) (fun _ x => x.listenEnds sh)))

/-- A HELLO frame. -/
def isHello (f : Frame) : Bool := f.kind == .hello

/-- The HELLO timer expires (R58). -/
def Blocks.helloExpires (t : Nat) (b : Blocks) : Blocks :=
  let b1 := b.onPres (fun p => { p with helloT := some (t + 1000) })
  if b1.isMember && !b1.line.held .presence isHello then b1.offer .presence (mkFrame .hello []) else b1

/-- HELLO_TIMER_EXPIRY (R58). -/
def execHelloTimerExpiry (s : State) : Host.Outcome State Fault Refusal :=
  s.run (Station.onBlk (fun _ b => b.onExpiry (·.pres.helloT) Blocks.helloExpires))

/-- A member is silent for 3.0 s (R59): a watching station that holds no GONE naming it offers one. -/
def Blocks.silent (x : Nat) (sh : Shop) (b : Blocks) : Blocks :=
  match Slots.get x b.pres.heard with
  | none => b
  | some t =>
    if live sh b && x != b.pres.station && memberOf x sh.rep && !b.line.held .presence (isGoneOf x) then
      (b.atDeadline (t + 3000)).offer .presence (mkFrame .gone [byte1 x])
    else b

/-- MEMBER_SILENT (R59). -/
def execMemberSilent (station : BitVec 4) (s : State) : Host.Outcome State Fault Refusal :=
  s.run (Station.onBlk (fun sh b => b.silent station.toNat sh))

/-- REJOIN_TAKES_EFFECT (R64, R23): a pending REJOIN, with no frame in emission. -/
def execRejoinTakesEffect (s : State) : Host.Outcome State Fault Refusal :=
  s.run (fun d =>
    if d.blk.host.rejoinPending && d.blk.line.emitting.isNone then d.rejoinNow else d)

end Sys2Proof.Machine
end

