-- ==== Sys2Proof/Machine/HostPort.lean ====
section
/-! DEFINITION. The host port (10): the exchange, and each request's checks, effect and reply (R186 to R190, R199,
R200). A request is one command, at its completing edge (R184; log 20). -/

namespace Sys2Proof.Machine

/-! ## The exchange -/

/-- The host port's state is changed. -/
def Blocks.onHost (f : HostPort → HostPort) (b : Blocks) : Blocks := { b with host := f b.host }

/-- SEL falls (R183): from high, an exchange begins. -/
def Blocks.selFalls (b : Blocks) : Blocks :=
  if b.selLow then b else { b with selLow := true, host := { b.host with exchange := .request, reply := none } }

/-- SEL rises (R185): the port is DESELECTED, and what was being received or sent is gone. -/
def Blocks.selRises (b : Blocks) : Blocks :=
  { b with selLow := false, host := { b.host with exchange := .deselected, reply := none } }

/-- The oldest notice leaves the queue, and the lost count and ATTN follow (R189, R191). -/
def HostPort.removeNotice (h : HostPort) : HostPort :=
  let rest := h.notices.tail
  { h with notices := rest, lost := if rest.isEmpty then 0 else h.lost, attn := !rest.isEmpty }

/-- The last bit of the reply has been clocked out (R183, R189). -/
def HostPort.replyOut (h : HostPort) : HostPort :=
  match h.exchange, h.reply with
  | .reply, some r => { (if r.notice then h.removeNotice else h) with exchange := .drain, reply := none }
  | _, _ => h

/-- A reply as it is clocked out: the status byte, the length byte and the payload (R183, R186). -/
def Reply.bytes (r : Reply) : List Byte := [byte1 r.status.code, byte1 r.payload.length] ++ r.payload

/-- What a request comes to: the part after it, and its reply. -/
structure Answer where
  dev : Station
  status : Status
  payload : List Byte
  notice : Bool
  deriving DecidableEq, Repr

/-- An answer that changes nothing. -/
def Station.says (st : Status) (payload : List Byte) (d : Station) : Answer :=
  { dev := d, status := st, payload := payload, notice := false }

/-- A refusal has no payload and no effect (R186). -/
def Station.refuses (st : Status) (d : Station) : Answer := d.says st []

/-- The reply is fixed at the completing edge (R184). -/
def Answer.sent (a : Answer) : Station :=
  { a.dev with
    blk := a.dev.blk.onHost (fun h =>
      { h with
        exchange := .reply
        reply := some { status := a.status, payload := a.payload, notice := a.notice } }) }

/-- A request other than STATUS arrives (R184): in REQUEST alone, and INERT comes first (R186). -/
def Station.request (act : Station → Answer) (d : Station) : Station :=
  if d.blk.host.exchange = .request then
    if d.blk.pres.mem = .inert then (d.refuses .inert).sent else (act d).sent
  else d

/-- The outbound queue holds 12 entries (R14). -/
def Blocks.queueFull (b : Blocks) : Bool := 12 ≤ b.line.queue.length

/-- A frame request that passes its checks offers its frame (R186). -/
def Station.queues (f : Frame) (payload : List Byte) (d : Station) : Answer :=
  { dev := d.onBlk (fun _ b => b.offer .host f), status := .queued, payload := payload, notice := false }

/-! ## STATUS, notices and REJOIN -/

/-- The STATUS reply (R187, R199). The fault reason is the sequencer's while it is FAULTED, as chapter 8 has it, and 0 where
the plan alone is FAULTED. DEDUCED, log 47. -/
def Station.statusBytes (d : Station) : List Byte :=
  let b := d.blk
  let cutter := b.pres.role == .cutter
  let flags := (if b.pres.mem = .inert then 1 else 0) + (if live d.shop b then 2 else 0) +
    (if b.host.rejoinPending then 4 else 0)
  [byte1 b.pres.station, byte1 b.pres.role.code, byte1 b.pres.rate, byte1 flags, byte1 b.pres.mem.code,
    byte1 b.pres.mem.phaseCode, byte1 d.shop.state.code] ++ bytes2 d.shop.gen.toNat ++
    [byte1 b.line.queue.length, byte1 b.host.notices.length, byte1 b.host.lost] ++ bytes2 b.meas.missed ++
    [byte1 (if cutter then (match b.planner.plan with | none => 0 | some p => p.state.code) else 0),
      byte1 (if cutter then b.saw.st.code else 0), byte1 (if cutter then faultCode b.saw.fault else 0),
      if cutter then 0 else flag b.plant.standby, byte1 (if cutter then 0 else bandCode b.plant.band)]

/-- STATUS is answered OK in every state (R187). -/
def Station.askStatus (d : Station) : Station :=
  if d.blk.host.exchange = .request then (d.says .ok d.statusBytes).sent else d

/-- FETCH_NOTICE (R189, R199, R201). -/
def Station.fetchNotice (d : Station) : Answer :=
  match d.blk.host.notices with
  | [] => d.says .ok (List.replicate 8 0 ++ [byte1 d.blk.host.lost])
  | n :: rest =>
    { dev := d, status := .ok, notice := true
      payload := [byte1 n.code] ++ padTo 6 n.detail ++ [byte1 rest.length, byte1 d.blk.host.lost] }

/-- REJOIN (R64): the reply is fixed, and it takes effect at once with no frame in emission (R23). -/
def Station.askRejoin (d : Station) : Answer :=
  if d.blk.pres.mem = .mute then d.refuses .wrongState
  else
    { dev := ({ d with blk := d.blk.onHost (fun h => { h with rejoinPending := true }) }).settleRejoin
      status := .ok, payload := [], notice := false }

/-- BAD_REQUEST (R184, R186): in an INERT station INERT comes first for every request but STATUS. -/
def Station.badRequest (code length : Byte) (d : Station) : Station :=
  if d.blk.host.exchange = .request ∧ requestLength code.toNat ≠ some length.toNat then
    if d.blk.pres.mem = .inert ∧ code ≠ 1 then (d.refuses .inert).sent else (d.refuses .badRequest).sent
  else d

/-! ## Stock -/

/-- REGISTER_SLAB (R87, R66). -/
def Station.registerSlab (material thickness length width rack rate : Nat) (d : Station) : Answer :=
  if !slabFieldsOk material thickness length width then d.refuses .badField
  else if !live d.shop d.blk then d.refuses .notLive
  else if d.blk.queueFull then d.refuses .full
  else
    let s := d.blk.pres.serial
    (d.onBlk (fun sh b => b.serialTaken sh)).queues
      (mkFrame .slabAdd (slabAddPayload s material thickness length width rack rate))
      (bytes2 (SlabId.code { origin := d.blk.pres.station, serial := s }))

/-- SCRAP_SLAB and FREE_ORPHAN (R87): a frame on a record in one state. -/
def Station.onRecord (code : Nat) (needs : SlabState) (k : Kind) (d : Station) : Answer :=
  match SlabId.ofCode code with
  | none => d.refuses .badField
  | some i =>
    if !live d.shop d.blk then d.refuses .notLive
    else
      match d.shop.rep.slab? i with
      | none => d.refuses .notFound
      | some x =>
        if x.state ≠ needs then d.refuses .wrongState
        else if d.blk.queueFull then d.refuses .full
        else d.queues (mkFrame k (bytes2 i.code)) []

/-- A slot as a byte; 255 for an unsettled record (R199; log 32). -/
def slotByte : Option Nat → Byte
  | some n => byte1 n
  | none => 255

/-- READ_SLAB (R188). -/
def Station.readSlab (code : Nat) (d : Station) : Answer :=
  match SlabId.ofCode code with
  | none => d.refuses .badField
  | some i =>
    match d.shop.rep.findSlab i with
    | none => d.refuses .notFound
    | some (slot, x) => d.says .ok ([slotByte slot] ++ x.body)

/-- The slab walk cursor is set (R188). -/
def Station.withCursor (n : Nat) (d : Station) : Station :=
  { d with blk := d.blk.onHost (fun h => { h with cursor := n }) }

/-- SET_CURSOR (R188). -/
def Station.setCursor (slot : Nat) (d : Station) : Answer :=
  if 159 < slot then d.refuses .badField else (d.withCursor slot).says .ok []

/-- WALK_SLABS (R188). -/
def Station.walkSlabs (d : Station) : Answer :=
  match Slots.atOrAbove d.blk.host.cursor d.shop.rep.slabs with
  | some (slot, x) => (d.withCursor (slot + 1)).says .ok ([byte1 slot] ++ x.body)
  | none => (d.withCursor 160).refuses .notFound

/-! ## Pieces and plans -/

/-- A request served in the CUTTER role alone (R186). -/
def Station.cutterOnly (act : Station → Answer) (d : Station) : Answer :=
  if d.blk.pres.role = .plant then d.refuses .wrongRole else act d

/-- The fields of a piece lie in their ranges (R119, R199). -/
def pieceFieldsOk (piece job material thickness length width rotate : Nat) : Bool :=
  within 1 255 piece && within 1 65535 job && within 1 250 material && within 12 60 thickness &&
    within 100 3990 length && within 100 2190 width && rotate ≤ 1

/-- The placements of the plan; none without a plan. -/
def Planner.placements (p : Planner) : List Placement :=
  match p.plan with
  | none => []
  | some q => q.placements

/-- A piece id stands in the queue or in the plan (R119). -/
def Planner.holdsPiece (n : Nat) (p : Planner) : Bool :=
  p.pieces.any (fun a => a.id == n) || p.placements.any (fun a => a.piece.id == n)

/-- SUBMIT_PIECE (R120). -/
def Station.submitPiece (piece job material thickness length width rotate : Nat) (d : Station) : Answer :=
  if !pieceFieldsOk piece job material thickness length width rotate || d.blk.planner.holdsPiece piece then
    d.refuses .badField
  else if !jobOpenIn job d.shop.rep then d.refuses .notFound
  else if 32 ≤ d.blk.planner.pieces.length + d.blk.planner.placements.length then d.refuses .full
  else
    Station.says .ok [] (d.onBlk (fun sh b =>
      (b.onPlanner (fun p =>
        { p with
          nextSub := p.nextSub + 1
          pieces := p.pieces ++
            [{ id := piece, job := job, material := material, thickness := thickness, length := length
               width := width, rotate := rotate == 1, state := .queued, sub := p.nextSub }] })).searchOrLook sh))

/-- The piece being claimed for (R126). -/
def Planner.claimsFor (n : Nat) (p : Planner) : Bool :=
  match p.plan with
  | some q => q.state == .claiming && q.piece == some n
  | none => false

/-- CANCEL_PIECE (R121). -/
def Station.cancelPiece (piece : Nat) (d : Station) : Answer :=
  if !d.blk.planner.holdsPiece piece then d.refuses .notFound
  else if d.blk.planner.placements.any (fun a => a.piece.id == piece) || d.blk.planner.claimsFor piece then
    d.refuses .wrongState
  else
    Station.says .ok [] (d.onBlk (fun _ b =>
      b.onPlanner (fun p => { p with pieces := p.pieces.filter (fun a => a.id != piece) })))

/-- A placement's 12 bytes (R200). -/
def Placement.bytes (x : Placement) : List Byte :=
  [byte1 x.piece.id] ++ bytes2 x.piece.job ++ bytes2 x.x ++ bytes2 x.y ++ bytes2 x.length ++ bytes2 x.width ++
    [byte1 ((if x.rotated then 1 else 0) + (if x.done then 2 else 0))]

/-- An offcut's 8 bytes (R200). -/
def Offcut.bytes (x : Offcut) : List Byte := bytes2 x.x ++ bytes2 x.y ++ bytes2 x.length ++ bytes2 x.width

/-- A cut's 6 bytes (R200). -/
def Cut.bytes (x : Cut) : List Byte :=
  [byte1 ((if x.kind = .rip then 1 else 0) + (if x.done then 2 else 0))] ++ bytes2 x.length ++ [byte1 x.placement] ++
    bytes2 x.job

/-- The content of part 0 (R200). R123 gives the fault reason while FAULTED; while RECLAIMING with FAULTED to return to,
the plan keeps its reason and the byte shows it. DESIGN CHOICE, log 39. -/
def partHead (p : Plan) (w : Saw) : List Byte :=
  [byte1 (if p.state = .reclaiming then p.back.code else 0), byte1 (faultCode p.fault),
    byte1 ((if p.started then 1 else 0) + (if p.releasing then 2 else 0))] ++ bytes2 p.slab.code ++
    bytes2 p.length ++ bytes2 p.width ++ [byte1 p.material, byte1 p.thickness, byte1 p.placements.length,
      byte1 p.offcuts.length, byte1 p.cuts.length, byte1 w.cur] ++ bytes2 w.enc ++ bytes2 w.cmd

/-- The length of a part's reply (R200). -/
def partLength (n : Nat) : Nat :=
  match n with
  | 0 => 21
  | 3 => 34
  | 4 => 26
  | _ => 38

/-- A part's content beyond its number and the plan state (R200). -/
def partBody (n : Nat) (p : Plan) (w : Saw) : List Byte :=
  match n with
  | 0 => partHead p w
  | 1 => ((p.placements.take 3).map Placement.bytes).flatten
  | 2 => (((p.placements.drop 3).take 3).map Placement.bytes).flatten
  | 3 => ((p.offcuts.take 4).map Offcut.bytes).flatten
  | 4 => (((p.offcuts.drop 4).take 3).map Offcut.bytes).flatten
  | 5 => ((p.cuts.take 6).map Cut.bytes).flatten
  | _ => (((p.cuts.drop 6).take 6).map Cut.bytes).flatten

/-- A part of the plan (R200). -/
def planPartBytes (n : Nat) (plan : Option Plan) (w : Saw) : List Byte :=
  padTo (partLength n)
    (match plan with
      | none => [byte1 n]
      | some p => [byte1 n, byte1 p.state.code] ++ partBody n p w)

/-- READ_PLAN (R123, R200). -/
def Station.readPlan (d : Station) : Answer :=
  let n := d.blk.host.planPart
  ({ d with blk := d.blk.onHost (fun h => { h with planPart := if n < 6 then n + 1 else 0 }) }).says .ok
    (planPartBytes n d.blk.planner.plan d.blk.saw)

/-- SEAL_PLAN (R132; log 16). -/
def Station.sealPlan (d : Station) : Answer :=
  match d.blk.planner.plan with
  | none => d.refuses .wrongState
  | some p => if p.open_ then (d.onBlk (fun _ b => b.sealNow)).says .ok [] else d.refuses .wrongState

/-- GO (R146). -/
def Station.goRequest (d : Station) : Answer :=
  match d.blk.saw.st with
  | .loadWait => (d.onBlk (fun sh b => b.goLoad sh)).says .ok []
  | .indexWait => (d.onBlk (fun sh b => b.goIndex sh)).says .ok []
  | .idle | .waterWait | .spinup | .cutting | .held | .finishing | .faulted => d.refuses .wrongState

/-- RESUME (R163). -/
def Station.resumeRequest (d : Station) : Answer :=
  if d.blk.saw.st = .faulted ∧ d.blk.saw.fault ≠ some .slabLost then
    (d.onBlk (fun sh b => b.sawResume sh)).says .ok []
  else d.refuses .wrongState

/-- ABANDON_PLAN (R136, R137). -/
def Station.abandonPlan (d : Station) : Answer :=
  match d.blk.planner.plan with
  | none => d.refuses .wrongState
  | some p =>
    if (p.state ≠ .loadWait ∧ p.state ≠ .faulted) ∨ p.releasing then d.refuses .wrongState
    else if p.state = .faulted ∧ p.fault = some .slabLost then
      (d.onBlk (fun sh b => b.abandonLost sh p)).says .ok []
    else if !live d.shop d.blk then d.refuses .notLive
    else if d.blk.queueFull then d.refuses .full
    else (d.onBlk (fun sh b => b.abandonQueued sh p)).says .queued []

/-! ## Jobs and cost lines -/

/-- The replica holds the job OPEN or CLOSING (R171). -/
def jobActive (n : Nat) (r : Replica) : Bool :=
  match r.job? n with
  | some x => x.state != .closed
  | none => false

/-- OPEN_JOB (R171). -/
def Station.openJob (n : Nat) (d : Station) : Answer :=
  if n = 0 then d.refuses .badField
  else if !live d.shop d.blk then d.refuses .notLive
  else if jobActive n d.shop.rep then d.refuses .wrongState
  else if d.blk.queueFull then d.refuses .full
  else d.queues (mkFrame .jobOpen (bytes2 n)) []

/-- CLOSE_JOB (R171). -/
def Station.closeJob (n : Nat) (d : Station) : Answer :=
  if n = 0 then d.refuses .badField
  else if !live d.shop d.blk then d.refuses .notLive
  else
    match d.shop.rep.job? n with
    | none => d.refuses .notFound
    | some x =>
      if x.state ≠ .opened then d.refuses .wrongState
      else if d.blk.queueFull then d.refuses .full
      else d.queues (mkFrame .jobClose (bytes2 n)) []

/-- READ_JOB (R171). -/
def Station.readJob (n : Nat) (d : Station) : Answer :=
  if n = 0 then d.refuses .badField
  else
    match d.shop.rep.findJob n with
    | none => d.refuses .notFound
    | some (slot, x) => d.says .ok ([slotByte slot] ++ x.body)

/-- READ_COST_LINE (R181). -/
def Station.readCostLine (slot : Nat) (d : Station) : Answer :=
  if 23 < slot then d.refuses .badField
  else
    match Slots.get slot d.blk.cost.lines with
    | none => d.refuses .notFound
    | some x =>
      d.says .ok (bytes2 x.job ++ x.tally.bytes ++
        [byte1 x.openCount, byte1 x.state.code, flag (d.blk.cost.holdOn slot)])

/-- CLEAR_COST_LINE (R181): the line is emptied and the planner told that a line has freed (R173). -/
def Station.clearCostLine (slot : Nat) (d : Station) : Answer :=
  if 23 < slot then d.refuses .badField
  else
    match Slots.get slot d.blk.cost.lines with
    | none => d.refuses .notFound
    | some x =>
      if x.state ≠ .refused then d.refuses .wrongState
      else
        Station.says .ok [] (d.onBlk (fun sh b =>
          (b.onCost (fun c => { c with lines := Slots.erase slot c.lines })).search sh))

/-! ## Ledger and samples -/

/-- An entry's five bytes (R199). -/
def Entry.bytes (e : Entry) : List Byte := [byte1 e.station] ++ bytes2 e.asked ++ bytes2 e.granted

/-- The generation of the replica that READ_LEDGER reads: while BUILDING the partial replica's, which is the expected
generation (R40, R190; log 7); else that of R25. -/
def Shop.readGen (sh : Shop) : Word16 :=
  match sh.build with
  | some x => x.expGen
  | none => sh.gen

/-- READ_LEDGER (R190). -/
def Station.readLedger (start : Nat) (d : Station) : Answer :=
  if 14 < start then d.refuses .badField
  else
    let l := d.shop.rep.ledger
    d.says .ok (bytes2 d.shop.readGen.toNat ++ bytes2 l.budget ++ [byte1 (optStation l.plant), byte1 l.entries.length] ++
      bytes2 (effGrant d.shop d.blk) ++ (((l.entries.drop start).take 6).map Entry.bytes).flatten)

/-- The correction's two bytes (R190, R199), 0 for none. R108 and R111 let the correction pass 65535 and no rule states
what the two bytes then show: a free value (log 36). -/
def Blocks.correctionWord (b : Blocks) : Word16 :=
  if b.plant.correction.getD 0 ≤ 65535 then BitVec.ofNat 16 (b.plant.correction.getD 0) else Config.freeValue b.draws

/-- The count of free values taken, after a READ_SAMPLES in the PLANT role (log 36). -/
def Blocks.drawn (b : Blocks) : Nat :=
  if b.plant.correction.getD 0 ≤ 65535 || b.pres.role == .cutter then b.draws else b.draws + 1

/-- READ_SAMPLES (R190). -/
def Station.readSamples (d : Station) : Answer :=
  let m := d.blk.meas
  let p := d.blk.plant
  let both := m.filteredBoth
  let front := bytes2 m.ma ++ bytes2 (both.elim 0 (·.1)) ++ bytes2 m.mb ++ bytes2 (both.elim 0 (·.2)) ++
    [flag both.isSome] ++ bytes2 m.missed
  { d with blk := { d.blk with draws := d.blk.drawn } }.says .ok
    (match d.blk.pres.role with
      | .cutter =>
        front ++ [byte1 ((if m.derate then 1 else 0) + (if m.jam then 2 else 0) + (if m.dry then 4 else 0))]
      | .plant =>
        front ++ bytes2 m.window ++ [byte1 (bandCode p.band),
          byte1 ((if p.turbid then 1 else 0) + (if p.correction.isSome then 2 else 0) +
            (if p.published.isSome then 4 else 0))] ++ bytes2 d.blk.correctionWord.toNat ++
          bytes2 (p.published.getD 0) ++ bytes2 p.lastSent)

end Sys2Proof.Machine
end

