-- ==== Sys2Proof/Machine/HostRows.lean ====
section
/-! DEFINITION. The commands of the host port: the edges of SEL, the end of a reply, and the requests (10). -/

namespace Sys2Proof.Machine

/-- SEL_FALL (R183, R184). -/
def execSelFall (s : State) : Host.Outcome State Fault Refusal := s.run (Station.onBlk (fun _ b => b.selFalls))

/-- SEL_RISE (R185). -/
def execSelRise (s : State) : Host.Outcome State Fault Refusal := s.run (Station.onBlk (fun _ b => b.selRises))

/-- NOTICE_REMOVED (R189): the last bit of a reply has been clocked out. -/
def execNoticeRemoved (s : State) : Host.Outcome State Fault Refusal :=
  s.run (Station.onBlk (fun _ b => b.onHost HostPort.replyOut))

/-- BAD_REQUEST (R184, R186). -/
def execBadRequest (code length : Byte) (s : State) : Host.Outcome State Fault Refusal :=
  s.run (Station.badRequest code length)

/-- STATUS (R187). -/
def execStatus (s : State) : Host.Outcome State Fault Refusal := s.run Station.askStatus

/-- FETCH_NOTICE (R189). -/
def execFetchNotice (s : State) : Host.Outcome State Fault Refusal := s.run (Station.request Station.fetchNotice)

/-- REJOIN (R64). -/
def execRejoin (s : State) : Host.Outcome State Fault Refusal := s.run (Station.request Station.askRejoin)

/-- REGISTER_SLAB (R87). -/
def execRegisterSlab (material thickness : Byte) (length width : Word16) (rack : Byte) (rate : Word16) (s : State) :
    Host.Outcome State Fault Refusal :=
  s.run (Station.request (Station.registerSlab material.toNat thickness.toNat length.toNat width.toNat rack.toNat
    rate.toNat))

/-- SCRAP_SLAB (R87). -/
def execScrapSlab (id : Word16) (s : State) : Host.Outcome State Fault Refusal :=
  s.run (Station.request (Station.onRecord id.toNat .free .scrap))

/-- FREE_ORPHAN (R87). -/
def execFreeOrphan (id : Word16) (s : State) : Host.Outcome State Fault Refusal :=
  s.run (Station.request (Station.onRecord id.toNat .orphaned .freeOrphan))

/-- SUBMIT_PIECE (R120). -/
def execSubmitPiece (piece : Byte) (job : Word16) (material thickness : Byte) (length width : Word16) (rotate : Byte)
    (s : State) : Host.Outcome State Fault Refusal :=
  s.run (Station.request (Station.cutterOnly (Station.submitPiece piece.toNat job.toNat material.toNat
    thickness.toNat length.toNat width.toNat rotate.toNat)))

/-- CANCEL_PIECE (R121). -/
def execCancelPiece (piece : Byte) (s : State) : Host.Outcome State Fault Refusal :=
  s.run (Station.request (Station.cutterOnly (Station.cancelPiece piece.toNat)))

/-- READ_SLAB (R188). -/
def execReadSlab (id : Word16) (s : State) : Host.Outcome State Fault Refusal :=
  s.run (Station.request (Station.readSlab id.toNat))

/-- SET_CURSOR (R188). -/
def execSetCursor (slot : Byte) (s : State) : Host.Outcome State Fault Refusal :=
  s.run (Station.request (Station.setCursor slot.toNat))

/-- WALK_SLABS (R188). -/
def execWalkSlabs (s : State) : Host.Outcome State Fault Refusal :=
  s.run (Station.request Station.walkSlabs)

/-- OPEN_JOB (R171). -/
def execOpenJob (job : Word16) (s : State) : Host.Outcome State Fault Refusal :=
  s.run (Station.request (Station.openJob job.toNat))

/-- CLOSE_JOB (R171). -/
def execCloseJob (job : Word16) (s : State) : Host.Outcome State Fault Refusal :=
  s.run (Station.request (Station.closeJob job.toNat))

/-- READ_JOB (R171). -/
def execReadJob (job : Word16) (s : State) : Host.Outcome State Fault Refusal :=
  s.run (Station.request (Station.readJob job.toNat))

/-- READ_COST_LINE (R181). -/
def execReadCostLine (slot : Byte) (s : State) : Host.Outcome State Fault Refusal :=
  s.run (Station.request (Station.readCostLine slot.toNat))

/-- CLEAR_COST_LINE (R181). -/
def execClearCostLine (slot : Byte) (s : State) : Host.Outcome State Fault Refusal :=
  s.run (Station.request (Station.clearCostLine slot.toNat))

/-- READ_LEDGER (R190). -/
def execReadLedger (start : Byte) (s : State) : Host.Outcome State Fault Refusal :=
  s.run (Station.request (Station.readLedger start.toNat))

/-- READ_SAMPLES (R190). -/
def execReadSamples (s : State) : Host.Outcome State Fault Refusal :=
  s.run (Station.request Station.readSamples)

/-- READ_PLAN (R123, R200). -/
def execReadPlan (s : State) : Host.Outcome State Fault Refusal :=
  s.run (Station.request (Station.cutterOnly Station.readPlan))

/-- SEAL_PLAN (R132). -/
def execSealPlan (s : State) : Host.Outcome State Fault Refusal :=
  s.run (Station.request (Station.cutterOnly Station.sealPlan))

/-- GO (R146). -/
def execGo (s : State) : Host.Outcome State Fault Refusal :=
  s.run (Station.request (Station.cutterOnly Station.goRequest))

/-- RESUME (R163). -/
def execResume (s : State) : Host.Outcome State Fault Refusal :=
  s.run (Station.request (Station.cutterOnly Station.resumeRequest))

/-- ABANDON_PLAN (R136, R137). -/
def execAbandonPlan (s : State) : Host.Outcome State Fault Refusal :=
  s.run (Station.request (Station.cutterOnly Station.abandonPlan))

end Sys2Proof.Machine
end

