-- ==== Sys2Proof/Machine/MachineRows.lean ====
section
/-! DEFINITION. The commands of the machine inputs and of the timers of the measurement unit, the plant unit, the
planner, the sequencer and the cost unit (06 to 09). -/

namespace Sys2Proof.Machine

/-- A step of the blocks that reads the replica. -/
def State.runBlk (f : Shop → Blocks → Blocks) (s : State) : Host.Outcome State Fault Refusal := s.run (Station.onBlk f)

/-! ## Measurement and plant -/

/-- SAMPLE_TRIGGER (R103): the sample timer, every 100 ms. -/
def execSampleTrigger (s : State) : Host.Outcome State Fault Refusal :=
  s.runBlk (fun _ b =>
    (b.atDeadline b.meas.sampleT).onMeas (fun m => { m.trigger with sampleT := b.meas.sampleT + 100 }))

/-- ANALOG_READING (R103, R104); a HALT break may end an emission that a REJOIN waits for (R23). -/
def execAnalogReading (value : BitVec 10) (s : State) : Host.Outcome State Fault Refusal :=
  s.run (fun d => (d.onBlk (fun sh b => b.analog value.toNat sh)).settleRejoin)

/-- JAM_TIMER_EXPIRY (R106, R160). -/
def execJamTimerExpiry (s : State) : Host.Outcome State Fault Refusal :=
  s.runBlk (fun _ b => b.onExpiry (·.meas.jamT) (fun _ x =>
    (x.onMeas (fun m => { m with jamT := none, jam := true })).tellJam))

/-- DRY_TIMER_EXPIRY (R107, R160). -/
def execDryTimerExpiry (s : State) : Host.Outcome State Fault Refusal :=
  s.runBlk (fun _ b => b.onExpiry (·.meas.dryT) (fun _ x =>
    (x.onMeas (fun m => { m with dryT := none, dry := true })).tellDry))

/-- FLOW_PULSE (R108). -/
def execFlowPulse (s : State) : Host.Outcome State Fault Refusal :=
  s.runBlk (fun _ b => if b.plants then b.onMeas Meas.pulse else b)

/-- FLOW_WINDOW_END (R108, R111, R112): the flow window timer, every 1 s. -/
def execFlowWindowEnd (s : State) : Host.Outcome State Fault Refusal :=
  s.runBlk (fun sh b => b.onExpiry (·.meas.windowT) (fun t x =>
    let x1 := x.onMeas (fun m => { m.windowEnd with windowT := some (t + 1000) })
    if x1.plants then x1.plantWindow (x1.meas.window * 10) sh else x1))

/-- SPACING_TIMER_EXPIRY (R113). -/
def execSpacingTimerExpiry (s : State) : Host.Outcome State Fault Refusal :=
  s.runBlk (fun sh b => b.onExpiry (·.plant.spacingT) (fun _ x =>
    (x.onPlant (fun p => { p with spacingT := none })).plantCompare sh))

/-! ## Planner, sequencer and cost unit -/

/-- SEALING_TIMER_EXPIRY (R131, R132). -/
def execSealingTimerExpiry (s : State) : Host.Outcome State Fault Refusal :=
  s.runBlk (fun _ b => b.onExpiry (·.planner.sealT) (fun _ x =>
    let x1 := x.setSealT none
    match x1.planner.plan with
    | some p => if p.open_ then x1.sealNow else x1
    | none => x1))

/-- ENC_COUNT (R144, R155). -/
def execEncCount (s : State) : Host.Outcome State Fault Refusal :=
  s.runBlk (fun sh b =>
    if b.saws then
      let b1 := b.onSaw (fun w => { w with enc := min 65535 (w.enc + 1) })
      if b1.saw.st = .cutting ∧ b1.saw.atTarget then b1.completeCut sh else b1
    else b)

/-- FEED_PULSE (R143, R159): the next pulse of the train begins. -/
def execFeedPulse (s : State) : Host.Outcome State Fault Refusal :=
  s.runBlk (fun _ b => if b.saw.feedOn then b.pulseBegins else b)

/-- STOP_INPUT (R144, R161). -/
def execStopInput (asserted : Bool) (s : State) : Host.Outcome State Fault Refusal :=
  s.runBlk (fun _ b =>
    let b1 := { b with stop := asserted }
    if asserted && (b1.saw.blade || b1.saw.feedOn) then b1.sawFault .stop else b1)

/-- SPIN_TIMER_EXPIRY (R142, R151). -/
def execSpinTimerExpiry (s : State) : Host.Outcome State Fault Refusal :=
  s.runBlk (fun sh b => b.onExpiry (·.saw.spinT) (fun _ x =>
    let x1 := x.onSaw (fun w => { w with spinT := none, atSpeed := w.blade })
    if x1.saw.blade && x1.saw.st == .spinup then x1.enterCutting sh else x1))

/-- HOLD_TIMER_EXPIRY (R154). -/
def execHoldTimerExpiry (s : State) : Host.Outcome State Fault Refusal :=
  s.runBlk (fun _ b => b.onExpiry (·.saw.holdT) (fun _ x =>
    let x1 := x.onSaw (fun w => { w with holdT := none })
    if x1.saw.st = .held ∨ x1.saw.st = .waterWait then x1.sawFault .water else x1))

/-- IDLE_SPIN_EXPIRY (R156). -/
def execIdleSpinExpiry (s : State) : Host.Outcome State Fault Refusal :=
  s.runBlk (fun _ b => b.onExpiry (·.saw.idleSpinT) (fun _ x =>
    (x.onSaw (fun w => { w with idleSpinT := none })).bladeOff))

/-- The drop timer expires (R148). -/
def Blocks.dropExpires (sh : Shop) (b : Blocks) : Blocks :=
  let b1 := (b.onSaw (fun w => { w with dropT := none, waterWanted := false })).withdraw .saw isFlowAsk
  if (sh.rep.ledger.entryOf b.pres.station).isSome && !b1.line.held .saw isFlowDrop then
    b1.offer .saw (mkFrame .flowDrop [])
  else b1

/-- DROP_TIMER_EXPIRY (R148). -/
def execDropTimerExpiry (s : State) : Host.Outcome State Fault Refusal :=
  s.runBlk (fun sh b => b.onExpiry (·.saw.dropT) (fun _ x => x.dropExpires sh))

/-- The charge of one second (R174). -/
def Blocks.chargeNow (b : Blocks) : Blocks :=
  if b.saw.blade then
    match b.saw.chargeJob with
    | some n => b.onCost (CostUnit.chargeSecond n b.saw.valve)
    | none => b
  else b

/-- COST_CLOCK (R174): every 1 s. -/
def execCostClock (s : State) : Host.Outcome State Fault Refusal :=
  s.runBlk (fun _ b => b.onExpiry (·.cost.clockT) (fun t x =>
    (x.onCost (fun c => { c with clockT := some (t + 1000) })).chargeNow))

end Sys2Proof.Machine
end

