-- ==== Sys2Proof/Machine/Dispatch.lean ====
section
/-! DEFINITION. One arm for each command: its meaning. -/

namespace Sys2Proof.Machine

/-- A command's effect on everything but the queue. -/
def exec (i : Instr) (s : State) : Host.Outcome State Fault Refusal :=
  match i with
  | .fullReset station rolePin rate => Sys2Proof.Machine.execFullReset station rolePin rate s
  | .receiveCharacter data mark stop => Sys2Proof.Machine.execReceiveCharacter data mark stop s
  | .lineIdle => Sys2Proof.Machine.execLineIdle s
  | .frameTimeLimit => Sys2Proof.Machine.execFrameTimeLimit s
  | .breakEvent => Sys2Proof.Machine.execBreakEvent s
  | .breakEnd => Sys2Proof.Machine.execBreakEnd s
  | .haltBreakEnd => Sys2Proof.Machine.execHaltBreakEnd s
  | .transmitStart => Sys2Proof.Machine.execTransmitStart s
  | .arbitrationLost => Sys2Proof.Machine.execArbitrationLost s
  | .collision => Sys2Proof.Machine.execCollision s
  | .sendCompleted => Sys2Proof.Machine.execSendCompleted s
  | .yieldClear => Sys2Proof.Machine.execYieldClear s
  | .lineRestExpiry => Sys2Proof.Machine.execLineRestExpiry s
  | .budget sender gen payload => Sys2Proof.Machine.execBudget sender gen payload s
  | .flowAsk sender gen payload => Sys2Proof.Machine.execFlowAsk sender gen payload s
  | .flowDrop sender gen payload => Sys2Proof.Machine.execFlowDrop sender gen payload s
  | .join sender gen payload => Sys2Proof.Machine.execJoin sender gen payload s
  | .gone sender gen payload => Sys2Proof.Machine.execGone sender gen payload s
  | .rebase sender gen payload => Sys2Proof.Machine.execRebase sender gen payload s
  | .slabAdd sender gen payload => Sys2Proof.Machine.execSlabAdd sender gen payload s
  | .claim sender gen payload => Sys2Proof.Machine.execClaim sender gen payload s
  | .release sender gen payload => Sys2Proof.Machine.execRelease sender gen payload s
  | .reclaim sender gen payload => Sys2Proof.Machine.execReclaim sender gen payload s
  | .consume sender gen payload => Sys2Proof.Machine.execConsume sender gen payload s
  | .scrap sender gen payload => Sys2Proof.Machine.execScrap sender gen payload s
  | .freeOrphanFrame sender gen payload => Sys2Proof.Machine.execFreeOrphanFrame sender gen payload s
  | .jobOpen sender gen payload => Sys2Proof.Machine.execJobOpen sender gen payload s
  | .jobClose sender gen payload => Sys2Proof.Machine.execJobClose sender gen payload s
  | .costReport sender gen payload => Sys2Proof.Machine.execCostReport sender gen payload s
  | .hello sender gen payload => Sys2Proof.Machine.execHello sender gen payload s
  | .syncAsk sender gen payload => Sys2Proof.Machine.execSyncAsk sender gen payload s
  | .snap sender target gen payload => Sys2Proof.Machine.execSnap sender target gen payload s
  | .askTimerExpiry => Sys2Proof.Machine.execAskTimerExpiry s
  | .listenTimerExpiry => Sys2Proof.Machine.execListenTimerExpiry s
  | .helloTimerExpiry => Sys2Proof.Machine.execHelloTimerExpiry s
  | .memberSilent station => Sys2Proof.Machine.execMemberSilent station s
  | .rejoinTakesEffect => Sys2Proof.Machine.execRejoinTakesEffect s
  | .selFall => Sys2Proof.Machine.execSelFall s
  | .selRise => Sys2Proof.Machine.execSelRise s
  | .noticeRemoved => Sys2Proof.Machine.execNoticeRemoved s
  | .badRequest code length => Sys2Proof.Machine.execBadRequest code length s
  | .status => Sys2Proof.Machine.execStatus s
  | .fetchNotice => Sys2Proof.Machine.execFetchNotice s
  | .rejoin => Sys2Proof.Machine.execRejoin s
  | .registerSlab material thickness length width rack rate => Sys2Proof.Machine.execRegisterSlab material thickness length width rack rate s
  | .scrapSlab id => Sys2Proof.Machine.execScrapSlab id s
  | .freeOrphan id => Sys2Proof.Machine.execFreeOrphan id s
  | .readSlab id => Sys2Proof.Machine.execReadSlab id s
  | .setCursor slot => Sys2Proof.Machine.execSetCursor slot s
  | .walkSlabs => Sys2Proof.Machine.execWalkSlabs s
  | .submitPiece piece job material thickness length width rotate => Sys2Proof.Machine.execSubmitPiece piece job material thickness length width rotate s
  | .cancelPiece piece => Sys2Proof.Machine.execCancelPiece piece s
  | .readPlan => Sys2Proof.Machine.execReadPlan s
  | .sealPlan => Sys2Proof.Machine.execSealPlan s
  | .go => Sys2Proof.Machine.execGo s
  | .resume => Sys2Proof.Machine.execResume s
  | .abandonPlan => Sys2Proof.Machine.execAbandonPlan s
  | .openJob job => Sys2Proof.Machine.execOpenJob job s
  | .closeJob job => Sys2Proof.Machine.execCloseJob job s
  | .readJob job => Sys2Proof.Machine.execReadJob job s
  | .readCostLine slot => Sys2Proof.Machine.execReadCostLine slot s
  | .clearCostLine slot => Sys2Proof.Machine.execClearCostLine slot s
  | .readLedger start => Sys2Proof.Machine.execReadLedger start s
  | .readSamples => Sys2Proof.Machine.execReadSamples s
  | .sampleTrigger => Sys2Proof.Machine.execSampleTrigger s
  | .analogReading value => Sys2Proof.Machine.execAnalogReading value s
  | .jamTimerExpiry => Sys2Proof.Machine.execJamTimerExpiry s
  | .dryTimerExpiry => Sys2Proof.Machine.execDryTimerExpiry s
  | .flowPulse => Sys2Proof.Machine.execFlowPulse s
  | .flowWindowEnd => Sys2Proof.Machine.execFlowWindowEnd s
  | .spacingTimerExpiry => Sys2Proof.Machine.execSpacingTimerExpiry s
  | .sealingTimerExpiry => Sys2Proof.Machine.execSealingTimerExpiry s
  | .encCount => Sys2Proof.Machine.execEncCount s
  | .feedPulse => Sys2Proof.Machine.execFeedPulse s
  | .stopInput asserted => Sys2Proof.Machine.execStopInput asserted s
  | .spinTimerExpiry => Sys2Proof.Machine.execSpinTimerExpiry s
  | .holdTimerExpiry => Sys2Proof.Machine.execHoldTimerExpiry s
  | .idleSpinExpiry => Sys2Proof.Machine.execIdleSpinExpiry s
  | .dropTimerExpiry => Sys2Proof.Machine.execDropTimerExpiry s
  | .costClock => Sys2Proof.Machine.execCostClock s

end Sys2Proof.Machine
end

