-- ==== Sys2Proof/Machine/Step.lean ====
section
/-! DEFINITION. One step: the command at the front of the queue; on an empty queue the clock ticks (log 4). -/

namespace Sys2Proof.Machine

/-- The model's clock moves on by one tick; no timer acts but by its own command (log 4). -/
def Station.ticks (d : Station) : Station := { d with blk := { d.blk with now := d.blk.now + Config.tick } }

/-- One step (the task's queue): the front command's effect with the queue's rest, or one tick. -/
def step (s : State) : Host.Outcome State Fault Refusal :=
  match s.pending with
  | [] => .next { s with dev := s.dev.ticks }
  | c :: rest => exec c { s with pending := rest }

/-- The command that a word spells, put at the front of the queue; no row of the table gives bits. -/
def State.withFetchWord (s : State) (nbits w : Nat) : State :=
  match decodeTableWord nbits w with
  | some c => { s with pending := c :: s.pending }
  | none => s

end Sys2Proof.Machine
end

