-- ==== Sys2Proof/Safety.lean ====
section
/-! DEFINITION. What it means for a state to be sound: the capacities and orderings that the spec gives each
collection, and the laws of the saw's outputs; and the words that the statements use: frames as commands, what no
frame changes, replies, and records whose fields lie in their ranges. -/

namespace Sys2Proof.Machine

/-! ## The line controller and the host port -/

/-- The outbound queue (R13, R14, R20): at most 12 entries, at most one IN_EMISSION, fewer than 8 failures, a frame
waits only while the queue is full, and a backlog stands only behind a frame of its producer on the wait list. -/
def Line.sound (l : Line) : Bool :=
  l.queue.length ≤ 12 && (l.queue.filter (·.inEmission)).length ≤ 1 && l.failures ≤ 7 &&
    (l.waitList.isEmpty || l.queue.length == 12) &&
    l.backlog.all (fun w => l.waitList.any (fun v => v.producer == w.producer))

/-- The notice queue (R191, R200): at most 16 notices, ATTN active exactly while it holds one, the lost count at
most 255, and the plan part index at most 6. -/
def HostPort.sound (h : HostPort) : Bool :=
  h.notices.length ≤ 16 && h.attn == !h.notices.isEmpty && h.lost ≤ 255 && h.planPart ≤ 6

/-! ## The replica -/

/-- The flow ledger (R88, R24): no grant above what was asked, and the grants within the budget. -/
def Ledger.sound (l : Ledger) : Bool := l.entries.all (fun e => e.granted ≤ e.asked) && grantSum l.entries ≤ l.budget

/-- The tables (R70, R24): slots strictly rising, of 160 and of 48. -/
def Replica.sound (r : Replica) : Bool :=
  Slots.wf r.slabs && Slots.wf r.jobs && r.slabs.all (fun p => p.1 ≤ 159) && r.jobs.all (fun p => p.1 ≤ 47)

/-- The build bookkeeping stands exactly while the replica is BUILDING, what is set aside was EMPTY or STALE (R39), and
the stream marks are slots (R42). -/
def Shop.sound (sh : Shop) : Bool :=
  sh.rep.sound &&
    match sh.build with
    | none => sh.state != .building
    | some x =>
      sh.state == .building && (x.asideState == .empty || x.asideState == .stale) && x.aside.sound &&
        x.slabMark.all (fun m => m ≤ 159) && x.jobMark.all (fun m => m ≤ 47)

/-- The job numbers of a replica (R165, R166): each from 1 to 65535, and no two records of one number. -/
def Replica.jobLaw (r : Replica) : Bool :=
  decide (r.allJobs.map (·.number)).Nodup && r.allJobs.all (fun x => within 1 65535 x.number)

/-! ## The saw -/

/-- The sequencer states that a plan state goes with (R124). -/
def PlanState.allows (p : PlanState) (w : SawState) : Bool :=
  match p with
  | .claiming | .planning | .sealed | .reclaiming => w == .idle
  | .loadWait => w == .loadWait
  | .running => w == .waterWait || w == .spinup || w == .cutting || w == .held || w == .indexWait
  | .consuming => w == .finishing || w == .idle
  | .faulted => w == .faulted || w == .idle

/-- The plan mirrors the sequencer (R124): with no plan, and with the releasing mark set, the sequencer is IDLE; a kept
RELEASE stands only with the mark (R136). -/
def mirrors (plan : Option Plan) (w : SawState) : Bool :=
  match plan with
  | none => w == .idle
  | some p => (!p.keptRelease || p.releasing) && (if p.releasing then w == .idle else p.following.allows w)

/-- FEED runs in CUTTING alone (R152). -/
def Saw.feedLaw (w : Saw) : Bool := !w.feedOn || w.st == .cutting

/-- CUTTING has 60% of its need granted (R152). -/
def Saw.cutLaw (w : Saw) : Bool := w.st != .cutting || (w.blade && atLeast60 w.grant w.need)

/-- BLADE is on only while the valve passes at least 25% of the need, and the valve is closed while it is off (R142). -/
def Saw.bladeLaw (w : Saw) : Bool :=
  if w.blade then atLeast25 w.valve w.need && w.valve == min w.grant w.need else w.valve == 0

/-- The states that drive the blade (R142), what SPINUP needs (R151), and the idle-spin timer, of INDEX_WAIT alone
(R156). -/
def Saw.stateLaw (w : Saw) : Bool :=
  (!w.blade || w.st == .spinup || w.st == .cutting || w.st == .held || w.st == .indexWait) &&
    (w.st != .spinup || (w.blade && atLeast60 w.grant w.need)) && (!w.atSpeed || w.blade) &&
    (w.idleSpinT.isNone || w.st == .indexWait)

/-- The plan copy stands outside IDLE, with the need of its thickness (R141, R145). -/
def Saw.planLaw (w : Saw) : Bool :=
  match w.plan with
  | none => w.st == .idle
  | some p => p.need == needOf p.thickness

/-- Outside the CUTTER role, and INERT, the planner and the sequencer hold nothing (R49, R50). -/
def Blocks.restLaw (b : Blocks) : Bool := b.saws || (b.planner.plan.isNone && b.planner.pieces.isEmpty)

/-- The sequencer is sound: its laws, the mirror of R124, and the grant it holds is the effective grant (R100, R149). -/
def sawSound (sh : Shop) (b : Blocks) : Bool :=
  b.saw.feedLaw && b.saw.cutLaw && b.saw.bladeLaw && b.saw.stateLaw && b.saw.planLaw &&
    mirrors b.planner.plan b.saw.st && b.restLaw && b.saw.grant == effGrant sh b

/-! ## The whole -/

/-- The part is sound. -/
def Station.sound (d : Station) : Bool :=
  d.blk.line.sound && d.blk.host.sound && d.shop.sound && sawSound d.shop d.blk

/-- The job numbers that the part holds (R165, R166, R179): those of its replica, of one set aside by a build, and of its
zero reports. -/
def Station.jobLaw (d : Station) : Bool :=
  d.shop.rep.jobLaw && d.shop.build.all (fun x => x.aside.jobLaw) &&
    d.blk.cost.reports.all (fun r => match r with | .zero n => within 1 65535 n | .line _ _ => true)

/-! ## Words of the statements: outcomes -/

/-- An outcome is a next state that has a property. -/
def Gives (o : Host.Outcome State Fault Refusal) (p : State → Prop) : Prop := ∃ t, o = .next t ∧ p t

/-! ## Words of the statements: the line -/

/-- The command that a taken frame of a kind is; `target` is the target of SNAP alone (R5). -/
def Kind.command (k : Kind) (sender target : BitVec 4) (gen : Word16) (p : List Byte) : Instr :=
  match k with
  | .budget => .budget sender gen p
  | .flowAsk => .flowAsk sender gen p
  | .flowDrop => .flowDrop sender gen p
  | .join => .join sender gen p
  | .gone => .gone sender gen p
  | .rebase => .rebase sender gen p
  | .slabAdd => .slabAdd sender gen p
  | .claim => .claim sender gen p
  | .release => .release sender gen p
  | .reclaim => .reclaim sender gen p
  | .consume => .consume sender gen p
  | .scrap => .scrap sender gen p
  | .freeOrphan => .freeOrphanFrame sender gen p
  | .jobOpen => .jobOpen sender gen p
  | .jobClose => .jobClose sender gen p
  | .costReport => .costReport sender gen p
  | .hello => .hello sender gen p
  | .syncAsk => .syncAsk sender gen p
  | .snap => .snap sender target gen p

/-- The characters of a frame as commands, the mark bit in the head alone (R4). -/
def charCommands : List Byte → List Instr
  | [] => []
  | h :: rest => .receiveCharacter h true true :: rest.map (fun c => .receiveCharacter c false true)

/-- A frame with this sender and payload is taken off the line (R4, R10, R50), and no REJOIN waits for it (R23). -/
def State.hears (s : State) (sender : BitVec 4) (p : List Byte) : Prop :=
  s.dev.blk.pres.mem ≠ .inert ∧ sender ≠ 0 ∧ p.length ≤ 40 ∧ s.dev.blk.host.rejoinPending = false

/-- The station's replica is CURRENT and takes a change frame of this sender, GEN and payload (R26). -/
def State.takes (s : State) (g : Word16) (sender : BitVec 4) (p : List Byte) : Prop :=
  s.hears sender p ∧ s.dev.shop.state = .current ∧ g = s.dev.shop.gen + 1

/-- What the head of another station's frame does at the line controller and the presence unit (R10, R19, R57, R60): the
receiver waits for idle, a yield ends, the sender is heard, and this station's GONE naming it is withdrawn. -/
def State.headed (s : State) (sender : Nat) : State :=
  { s with
    dev.blk.line := Line.withdraw .presence (isGoneOf sender) false
      { s.dev.blk.line with
        rx := .waitIdle, idle := false, txDone := none, badStop := false
        yielding := s.dev.blk.line.yielding && s.dev.blk.line.emitting.isSome }
    dev.blk.pres.heard := Slots.set sender s.dev.blk.now s.dev.blk.pres.heard }

/-- What no taken frame changes: the clock and the count of free values, the pins and straps, the exchange, the cursors,
the measurement unit's readings, the plant unit's measurements, the saw's counts, and the breaks and the rest of the
line. -/
structure KeptByFrames (s t : State) : Prop where
  pending : t.pending = s.pending
  clock : t.dev.blk.now = s.dev.blk.now ∧ t.dev.blk.draws = s.dev.blk.draws
  pins : t.dev.blk.selLow = s.dev.blk.selLow ∧ t.dev.blk.stop = s.dev.blk.stop
  straps : t.dev.blk.pres.station = s.dev.blk.pres.station ∧ t.dev.blk.pres.role = s.dev.blk.pres.role ∧
    t.dev.blk.pres.rate = s.dev.blk.pres.rate
  line : t.dev.blk.line.rx = .waitIdle ∧ t.dev.blk.line.idle = false ∧ t.dev.blk.line.inBreak = s.dev.blk.line.inBreak ∧
    t.dev.blk.line.halting = s.dev.blk.line.halting ∧ t.dev.blk.line.restT = s.dev.blk.line.restT ∧
    t.dev.blk.line.lastDiscard = s.dev.blk.line.lastDiscard ∧ t.dev.blk.line.badStop = false
  port : t.dev.blk.host.exchange = s.dev.blk.host.exchange ∧ t.dev.blk.host.reply = s.dev.blk.host.reply ∧
    t.dev.blk.host.cursor = s.dev.blk.host.cursor ∧ t.dev.blk.host.planPart = s.dev.blk.host.planPart
  readings : t.dev.blk.meas.sampleT = s.dev.blk.meas.sampleT ∧ t.dev.blk.meas.scan = s.dev.blk.meas.scan ∧
    t.dev.blk.meas.ma = s.dev.blk.meas.ma ∧ t.dev.blk.meas.mb = s.dev.blk.meas.mb ∧
    t.dev.blk.meas.maHist = s.dev.blk.meas.maHist ∧ t.dev.blk.meas.mbHist = s.dev.blk.meas.mbHist ∧
    t.dev.blk.meas.missed = s.dev.blk.meas.missed ∧ t.dev.blk.meas.windowT = s.dev.blk.meas.windowT ∧
    t.dev.blk.meas.pulses = s.dev.blk.meas.pulses ∧ t.dev.blk.meas.window = s.dev.blk.meas.window
  levels : t.dev.blk.plant.band = s.dev.blk.plant.band ∧ t.dev.blk.plant.turbid = s.dev.blk.plant.turbid ∧
    t.dev.blk.plant.correction = s.dev.blk.plant.correction ∧ t.dev.blk.plant.published = s.dev.blk.plant.published
  counts : t.dev.blk.saw.enc = s.dev.blk.saw.enc
  clocks : t.dev.blk.cost.clockT = s.dev.blk.cost.clockT

/-- A frame is the station's own, its sending just completed (R12, log 2). -/
def State.ownFrame (s : State) (sender : BitVec 4) (k : Kind) : Prop :=
  sender.toNat = s.dev.blk.pres.station ∧ s.dev.blk.line.emitting = none ∧ s.dev.blk.line.txDone = some k

/-- A change frame is taken: the generation and the replica become these, and nothing else of the shop state moves. -/
def State.becomes (s : State) (g : Word16) (r : Replica) (o : Host.Outcome State Fault Refusal) : Prop :=
  Gives o (fun t => t.dev.shop = { s.dev.shop with gen := g, rep := r } ∧ KeptByFrames s t)

/-- The slot is the lowest empty one of a table (R70). -/
def lowestEmpty {α : Type} (n : Nat) (m : Slots α) : Prop :=
  Slots.get n m = none ∧ ∀ k, k < n → (Slots.get k m).isSome = true

/-- The remnants, each as the record it makes, are recorded in their order (R84): one whose id is held is not; another goes
into the lowest empty slot below the limit; with none there, it is held unsettled in a build (`loose`; R42), and not
recorded in a complete table. -/
def recordsRemnants (limit : Nat) (loose : Bool) : List Slab → Replica → Replica → Prop
  | [], r, r' => r' = r
  | x :: rest, r, r' =>
    ((∃ y ∈ r.allSlabs, y.id = x.id) ∧ recordsRemnants limit loose rest r r') ∨
      ((∀ y ∈ r.allSlabs, y.id ≠ x.id) ∧
        ((∃ n, n < limit ∧ lowestEmpty n r.slabs ∧
            recordsRemnants limit loose rest { r with slabs := Slots.set n x r.slabs } r') ∨
          ((∀ n, n < limit → (Slots.get n r.slabs).isSome = true) ∧
            recordsRemnants limit loose rest (if loose then { r with looseSlabs := r.looseSlabs ++ [x] } else r) r')))

/-- The first notice posted between two states is this one, where the queue has room for it (R191). -/
def State.posts (s t : State) (n : Notice) : Prop :=
  s.dev.blk.host.notices.length < 16 → s.dev.blk.host.notices ++ [n] <+: t.dev.blk.host.notices

/-- A frame of a producer stands in the outbound queue, on the wait list or in a backlog (R14). -/
def State.holds (s : State) (p : Producer) (f : Frame) : Prop := { producer := p, frame := f } ∈ s.dev.blk.line.frames

/-! ## Words of the statements: the host port -/

/-- A request arrives and is served: the port is in REQUEST and the station is not INERT (R184, R50). -/
def State.asked (s : State) : Prop := s.dev.blk.host.exchange = .request ∧ s.dev.blk.pres.mem ≠ .inert

/-- The reply is fixed and the port is in REPLY (R184). -/
def State.answered (s : State) (st : Status) (payload : List Byte) : State :=
  { s with
    dev.blk.host.exchange := .reply
    dev.blk.host.reply := some { status := st, payload := payload, notice := false } }

/-- The station is LIVE: a MEMBER whose replica is CURRENT (R51). -/
def State.isLive (s : State) : Prop := s.dev.blk.pres.mem = .member ∧ s.dev.shop.state = .current

/-- A frame request is answered QUEUED and its frame joins the outbound queue (R186, R14). -/
def State.queued (s : State) (f : Frame) (payload : List Byte) : State :=
  { s with dev.blk.line := s.dev.blk.line.enqueue .host f }.answered .queued payload

/-- The commands that are host requests (R199). -/
def isHostRequest : Instr → Bool
  | .badRequest .. | .status | .fetchNotice | .rejoin | .registerSlab .. | .scrapSlab _ | .freeOrphan _ | .readSlab _
  | .setCursor _ | .walkSlabs | .submitPiece .. | .cancelPiece _ | .readPlan | .sealPlan | .go | .resume
  | .abandonPlan | .openJob _ | .closeJob _ | .readJob _ | .readCostLine _ | .clearCostLine _ | .readLedger _
  | .readSamples => true
  | _ => false

/-- The requests of planning and sawing, served in the CUTTER role alone (R186). -/
def isCutterRequest : Instr → Bool
  | .submitPiece .. | .cancelPiece _ | .readPlan | .sealPlan | .go | .resume | .abandonPlan => true
  | _ => false

/-- The commands of the shop line's events and frames, which an INERT station does not see (R50). -/
def isLineCommand : Instr → Bool
  | .receiveCharacter .. | .lineIdle | .frameTimeLimit | .breakEvent | .breakEnd | .haltBreakEnd | .transmitStart
  | .yieldClear | .budget .. | .flowAsk .. | .flowDrop .. | .join .. | .gone .. | .rebase .. | .slabAdd .. | .claim ..
  | .release .. | .reclaim .. | .consume .. | .scrap .. | .freeOrphanFrame .. | .jobOpen .. | .jobClose ..
  | .costReport .. | .hello .. | .syncAsk .. | .snap .. => true
  | _ => false

/-! ## Words of the statements: records in their ranges -/

/-- A slab id in range (R68). -/
def SlabId.lawful (i : SlabId) : Bool := within 1 15 i.origin && within 1 4095 i.serial

/-- A station that may be absent, in range. -/
def lawfulStation : Option Nat → Bool
  | none => true
  | some s => within 1 15 s

/-- A slab record with its fields in range, and its kind and state in keeping with parent and holder (R68). -/
def Slab.lawful (x : Slab) : Bool :=
  x.id.lawful && slabFieldsOk x.material x.thickness x.length x.width && x.rack ≤ 255 && x.rate ≤ 65535 &&
    (match x.kind, x.parent with | .sheet, none => true | .remnant, some p => p.lawful | _, _ => false) &&
    (match x.state, x.holder with | .free, none => true | .free, some _ => false | _, some s => within 1 15 s | _, none => false)

/-- A tally with its fields in range (R165). -/
def Tally.lawful (t : Tally) : Bool :=
  t.stone ≤ maxSum && t.waste ≤ maxSum && t.cost ≤ maxSum && t.water ≤ maxSum && t.blade ≤ maxSum &&
    t.face ≤ maxSum && t.pieces ≤ 65535

/-- A job record with its fields in range, its pending set in station order (R165). -/
def Job.lawful (x : Job) : Bool :=
  within 1 65535 x.number && within 1 15 x.opener && lawfulStation x.closer &&
    x.pending == stations.filter (fun s => x.pending.contains s) && x.tally.lawful

/-- A snapshot record with its fields in range (R198). -/
def Record.lawful : Record → Bool
  | .member m => within 1 15 m.station
  | .head budget plant => budget ≤ 8000 && lawfulStation plant
  | .entry e => within 1 15 e.station && within 100 2000 e.asked && e.granted ≤ e.asked
  | .slab slot x => slot ≤ 159 && x.lawful
  | .job slot x => slot ≤ 47 && x.lawful
  | .fin members entries slabs jobs => members ≤ 15 && entries ≤ 15 && slabs ≤ 160 && jobs ≤ 48

/-- A remnant with its fields in range (R83). -/
def Remnant.lawful (m : Remnant) : Bool := within 1 4095 m.serial && within 100 4000 m.length && within 100 2200 m.width

end Sys2Proof.Machine
end

