-- ==== Sys2Proof/Certificates/Slice0/Obligations.lean ====
section
/-! DEFINITION. The statements for the provers, from the rules of spec/. A statement about every state takes as premises
only what its rule conditions on, or an invariant that is stated here too. -/

open Sys2Proof Sys2Proof.Machine

/-! ## The step, reset and the invariants -/

/-- A step takes the command at the front of the queue (the task's queue). With an empty queue the clock moves on by one
millisecond and nothing else changes: the model's choice (log 4). -/
def Obligations.StepRunsTheFrontCommand : Prop :=
  (∀ (c : Instr) (rest : List Instr) (s : State), s.pending = c :: rest → step s = exec c { s with pending := rest }) ∧
  ∀ s : State, s.pending = [] → step s = .next { s with dev.blk.now := s.dev.blk.now + 1 }

/-- Every command is answered with a next state, and none touches the queue of commands. -/
def Obligations.EveryCommandAnswersANextState : Prop :=
  ∀ (c : Instr) (s : State), ∃ t, exec c s = .next t ∧ t.pending = s.pending

/-- FULL_RESET reads the straps and puts every block at its full-reset values, from any state (R49, R50, R23, R48, R67,
R102, R117, R118, R140, R164, R182, R193). The model's choices in it: the levels of SEL and STOP stand (log 5), the clock
is back at 0 (log 4), no discard is kept (log 21), the feed's rate and period are 0 (log 41), and the count of free values
goes on (log 36). -/
def Obligations.FullResetSetsEveryBlock : Prop :=
  ∀ (station : BitVec 4) (rolePin : Bool) (rate : BitVec 2) (s : State),
    let inert : Bool := station == 0 || rate == 0
    exec (.fullReset station rolePin rate) s = .next
      { State.reset with
        pending := s.pending
        dev.blk.draws := s.dev.blk.draws
        dev.blk.selLow := s.dev.blk.selLow
        dev.blk.stop := s.dev.blk.stop
        dev.blk.pres :=
          { station := station.toNat, role := if rolePin then .plant else .cutter, rate := rate.toNat
            mem := if inert then .inert else .outside .listen
            listenT := if inert then none else some 1500
            askT := none, helloT := none, heard := [], serial := 1 }
        dev.blk.meas.windowT := if rolePin && !inert then some 1000 else none
        dev.blk.cost.clockT := if inert then none else some 1000 }

/-- The state at reset is sound and keeps to the job numbers, and so is the state a FULL_RESET leaves, whatever came
before. -/
def Obligations.ResetStatesAreSound : Prop :=
  State.reset.dev.sound = true ∧ State.reset.dev.jobLaw = true ∧
    ∀ (station : BitVec 4) (rolePin : Bool) (rate : BitVec 2) (s : State),
      Gives (exec (.fullReset station rolePin rate) s) (fun t => t.dev.sound = true ∧ t.dev.jobLaw = true)

/-- Every step keeps the outbound queue sound (R13, R14, R20): 12 entries at most, one IN_EMISSION at most, fewer than 8
failures, and frames that wait only for a full queue. -/
def Obligations.StepKeepsTheOutboundQueue : Prop :=
  ∀ s t : State, s.dev.blk.line.sound = true → step s = .next t → t.dev.blk.line.sound = true

/-- Every step keeps the notice queue sound (R191, R200): 16 notices at most, ATTN active exactly while there is one,
and the lost count at most 255. -/
def Obligations.StepKeepsTheNoticeQueue : Prop :=
  ∀ s t : State, s.dev.blk.host.sound = true → step s = .next t → t.dev.blk.host.sound = true

/-- Every step keeps the shop state sound (R24, R39, R42, R70): the tables keep their slots rising and within their
sizes, and the build bookkeeping stands exactly while the replica is BUILDING. Every step also keeps the job numbers (R165,
R166): no two job records of one number, and each number, also of a held zero report, from 1 to 65535. -/
def Obligations.StepKeepsTheShopState : Prop :=
  ∀ s t : State, step s = .next t →
    (s.dev.shop.sound = true → t.dev.shop.sound = true) ∧ (s.dev.jobLaw = true → t.dev.jobLaw = true)

/-- Every step keeps the laws of the saw (R124, R142, R149, R151, R152): FEED in CUTTING alone, CUTTING at 60% of the
need at least, BLADE on with the valve at 25% at least, the plan mirroring the sequencer, the grant the effective one,
which an own entry gives before the station is LIVE too (log 56). -/
def Obligations.StepKeepsTheSawLaws : Prop :=
  ∀ s t : State, s.dev.shop.sound = true → sawSound s.dev.shop s.dev.blk = true → step s = .next t →
    sawSound t.dev.shop t.dev.blk = true

/-- While the replica is CURRENT, a taken change frame keeps the grants within what was asked and their sum within the
budget (R88). -/
def Obligations.TakenFramesKeepTheLedgerSound : Prop :=
  ∀ (k : Kind) (sender target : BitVec 4) (g : Word16) (p : List Byte) (s : State),
    k.isChange = true → s.takes g sender p → s.dev.shop.rep.ledger.sound = true →
      Gives (exec (k.command sender target g p) s) (fun t => t.dev.shop.rep.ledger.sound = true)

/-! ## Characters and frames -/

/-- The folded sum, the CHECK character, and the receiver's test of it (R6). -/
def Obligations.FoldedSumAndCheck : Prop :=
  foldedSum [] = 0 ∧
  (∀ (l : List Byte) (c : Byte),
    foldedSum (l ++ [c]) =
      if 255 < foldedSum l + c.toNat then foldedSum l + c.toNat - 256 + 1 else foldedSum l + c.toNat) ∧
  (∀ l : List Byte, foldedSum l ≤ 255) ∧
  (∀ (station : Nat) (gen : Word16) (f : Frame),
    (∃ front, front.length = 6 + f.payload.length ∧
      frameChars station gen f = front ++ [byte1 (255 - foldedSum front)]) ∧
    foldedSum (frameChars station gen f) = 255) ∧
  (∀ (station : Nat) (h k t n : Byte) (rest : List Byte), 4 + rest.length = 7 + n.toNat →
    hearFrame station (h :: k :: t :: n :: rest) =
      if foldedSum (h :: k :: t :: n :: rest) = 255 then .done else .badCheck)

/-- The characters that a sender emits pass every check of a receiver and give back the kind, the sender, the target,
the GEN and the payload; a SNAP to another station is skipped at its TARGET (R4, R5, R8, R10, R11). -/
def Obligations.FrameCharactersRoundTrip : Prop :=
  ∀ (station own : Nat) (gen : Word16) (f : Frame),
    within 1 15 station = true → f.payload.length ≤ 40 →
    (if f.kind = .snap then within 1 15 f.target = true else f.target = 0) →
    (frameChars station gen f).length = 7 + f.payload.length ∧
    (f.kind ≠ .snap ∨ f.target = own →
      (∀ n, 0 < n → n < 7 + f.payload.length → hearFrame own ((frameChars station gen f).take n) = .more) ∧
      hearFrame own (frameChars station gen f) = .done ∧
      parseFrame (frameChars station gen f) =
        some { kind := f.kind, sender := station, target := f.target, gen := gen, payload := f.payload }) ∧
    (f.kind = .snap → f.target ≠ own → hearFrame own ((frameChars station gen f).take 3) = .skips)

/-- The payloads that a station composes are read back as the change they ask for (R197), and a snapshot record survives its
encoding, with every field at every value of its range, and fits a frame (R198), a JOB record whose own fields contradict
each other among them: the model accepts it (log 44). The bytes of a host request make the request at its completing edge
(R183, R184, R199), and a length that is not its code's makes BAD_REQUEST. -/
def Obligations.PayloadsAndRecordsRoundTrip : Prop :=
  (∀ (seq : Nat) (r : Record), seq ≤ 239 → r.lawful = true →
    snapSeq (snapPayload seq r) = some seq ∧ snapRecord (snapPayload seq r) = some r ∧
      (snapPayload seq r).length ≤ 40) ∧
  (∀ v, v ≤ 8000 → parseChange .budget (bytes2 v) = some (.budget v)) ∧
  (∀ q, within 100 2000 q = true → parseChange .flowAsk (bytes2 q) = some (.flowAsk q)) ∧
  parseChange .flowDrop [] = some .flowDrop ∧
  (∀ r : Role, parseChange .join [byte1 r.code] = some (.join r)) ∧
  (∀ s, within 1 15 s = true → parseChange .gone [byte1 s] = some (.gone s)) ∧
  (∀ serial m t l w rack rate, within 1 4095 serial = true → slabFieldsOk m t l w = true → rack ≤ 255 → rate ≤ 65535 →
    parseChange .slabAdd (slabAddPayload serial m t l w rack rate) = some (.slabAdd serial m t l w rack rate)) ∧
  (∀ i : SlabId, i.lawful = true →
    parseChange .claim (bytes2 i.code) = some (.claim i) ∧ parseChange .release (bytes2 i.code) = some (.release i) ∧
      parseChange .reclaim (bytes2 i.code) = some (.reclaim i) ∧ parseChange .scrap (bytes2 i.code) = some (.scrap i) ∧
      parseChange .freeOrphan (bytes2 i.code) = some (.freeOrphan i)) ∧
  (∀ (i : SlabId) (abandoned : Bool) (total : Nat) (rs : List Remnant), i.lawful = true → total ≤ 8800000 →
    rs.length ≤ 3 → (∀ m ∈ rs, m.lawful = true) →
    parseChange .consume (consumePayload i abandoned total rs) = some (.consume i abandoned total rs)) ∧
  (∀ n, within 1 65535 n = true →
    parseChange .jobOpen (bytes2 n) = some (.jobOpen n) ∧ parseChange .jobClose (bytes2 n) = some (.jobClose n)) ∧
  (∀ (n : Nat) (t : Tally), within 1 65535 n = true → t.lawful = true →
    parseChange .costReport (reportPayload n t) = some (.costReport n t)) ∧
  (∀ c : Instr, (requestFields c).isSome = true ↔ isHostRequest c = true ∧ ∀ code length, c ≠ .badRequest code length) ∧
  (∀ (c : Instr) (code : Byte) (payload : List Byte), requestFields c = some (code, payload) →
    requestLength code.toNat = some payload.length ∧ requestBytes c = some (code :: byte1 payload.length :: payload) ∧
      requestOf (code :: byte1 payload.length :: payload) = some c) ∧
  (∀ (code length : Byte) (payload : List Byte),
    (length.toNat ≤ 40 → payload.length < length.toNat → requestOf (code :: length :: payload) = none) ∧
    (length.toNat ≤ 40 → payload.length = length.toNat → requestLength code.toNat ≠ some length.toNat →
      requestOf (code :: length :: payload) = some (.badRequest code length)) ∧
    (40 < length.toNat → requestOf (code :: length :: payload) = some (.badRequest code length)))

/-- The characters of a frame, one command each, bring a READY receiver where the whole frame's command brings it
(R7 to R12; the two levels of frame commands are log 1). -/
def Obligations.CharactersMakeTheFrame : Prop :=
  ∀ (k : Kind) (sender target : BitVec 4) (gen : Word16) (p : List Byte) (s : State),
    s.dev.blk.pres.mem ≠ .inert → sender ≠ 0 → p.length ≤ 40 →
    s.dev.blk.line.rx = .ready → s.dev.blk.line.txDone = none →
    (k = .snap → target ≠ 0 ∧ (target.toNat = s.dev.blk.pres.station ∨ sender.toNat ≠ s.dev.blk.pres.station)) →
    let f : Frame := { kind := k, target := if k = .snap then target.toNat else 0, payload := p }
    Host.Core.run core (7 + p.length) { s with pending := charCommands (frameChars sender.toNat gen f) } =
      exec (k.command sender target gen p) { s with pending := [] }

/-- What a complete character does in each receiver state (R1, R7, R8, R10, R11, R19); the last character of a sound
frame is `CharactersMakeTheFrame`'s. The model's choices in it: what `lastDiscard` keeps, a bad start that leaves no reason
there, and the mark of a dominant stop bit that may grow into a break (log 21); that an own CHECK read after its
SEND_COMPLETED still counts as the station's own start bit (log 33). -/
def Obligations.ReceiverTakesACharacter : Prop :=
  ∀ (data : Byte) (mark stop : Bool) (s : State), s.dev.blk.pres.mem ≠ .inert →
    let l := s.dev.blk.line
    let o := exec (.receiveCharacter data mark stop) s
    let ends (badStop : Bool) (rx : Rx) (d : Option Discard) : Host.Outcome State Fault Refusal := .next
      { s with
        dev.blk.line.rx := rx
        dev.blk.line.idle := false
        dev.blk.line.lastDiscard := d
        dev.blk.line.badStop := badStop
        dev.blk.line.yielding := l.yielding && (l.emitting.isSome || (l.rx.inFrame && l.txDone.isSome)) }
    let now := ends false
    (l.rx = .waitIdle ∨ l.rx = .skip → o = now l.rx l.lastDiscard) ∧
    (l.rx = .ready → stop = false ∨ mark = false → o = now .waitIdle l.lastDiscard) ∧
    (l.rx = .ready → stop = true → mark = true →
      o = if within 1 7 (data.toNat / 16) && within 1 15 (data.toNat % 16) then now (.frame [data]) l.lastDiscard
        else now .waitIdle (some .malformed)) ∧
    ∀ chars, l.rx = .frame chars →
      (stop = false → o = ends true .waitIdle (some .framing)) ∧
      (stop = true → mark = true → o = now .waitIdle (some .malformed)) ∧
      (stop = true → mark = false →
        (∀ h, chars = [h] →
          o = if (Kind.ofCodes (h.toNat / 16) data.toNat).isSome then now (.frame [h, data]) l.lastDiscard
            else now .waitIdle (some .malformed)) ∧
        (∀ h c, chars = [h, c] → Kind.ofCodes (h.toNat / 16) c.toNat ≠ some .snap →
          o = if data = 0 then now (.frame [h, c, data]) l.lastDiscard else now .waitIdle (some .malformed)) ∧
        (∀ h c, chars = [h, c] → Kind.ofCodes (h.toNat / 16) c.toNat = some .snap →
          (within 1 15 data.toNat = false → o = now .waitIdle (some .malformed)) ∧
          (within 1 15 data.toNat = true → data.toNat = s.dev.blk.pres.station →
            o = now (.frame [h, c, data]) l.lastDiscard) ∧
          (within 1 15 data.toNat = true → data.toNat ≠ s.dev.blk.pres.station →
            Gives o (fun t => t.dev.blk.line.rx = .skip ∧ t.dev.shop = s.dev.shop))) ∧
        (∀ h c t, chars = [h, c, t] →
          o = if data.toNat ≤ 40 then now (.frame [h, c, t, data]) l.lastDiscard
            else now .waitIdle (some .malformed)) ∧
        (∀ h c t n rest, chars = h :: c :: t :: n :: rest → chars.length + 1 < 7 + n.toNat →
          o = now (.frame (chars ++ [data])) l.lastDiscard) ∧
        (∀ h c t n rest, chars = h :: c :: t :: n :: rest → 7 + n.toNat ≤ chars.length + 1 →
          foldedSum (chars ++ [data]) ≠ 255 → o = now .waitIdle (some .check)))

/-! ## The line controller -/

/-- An INERT station sees nothing of the line: its events and frames change nothing (R50). In every other state: LINE_IDLE
(R2, R7, R9): the receiver is READY, and a frame in progress is discarded as TIMEOUT; FRAME_TIME_LIMIT (R9), BREAK_END
(R3), HALT_BREAK_END (R21), YIELD_CLEAR (R19) and LINE_REST_EXPIRY (R20). An expiry of a rest that does not run has no
effect (log 3), the clock stands at the deadline or past it (log 4), and idle ends a run of dominant bits (log 21). -/
def Obligations.LineEventsMoveTheLineController : Prop :=
  (∀ (c : Instr) (s : State), isLineCommand c = true → s.dev.blk.pres.mem = .inert → exec c s = .next s) ∧
  ∀ s : State, s.dev.blk.pres.mem ≠ .inert →
    let l := s.dev.blk.line
    (l.inBreak = false → l.halting = false → exec .lineIdle s = .next
      { s with
        dev.blk.line.idle := true
        dev.blk.line.rx := .ready
        dev.blk.line.badStop := false
        dev.blk.line.lastDiscard := if l.rx.inFrame then some .timeout else l.lastDiscard }) ∧
    (l.inBreak = true ∨ l.halting = true → exec .lineIdle s = .next s) ∧
    (∀ chars, l.rx = .frame chars → exec .frameTimeLimit s = .next
      { s with dev.blk.line.rx := .waitIdle, dev.blk.line.lastDiscard := some .timeout }) ∧
    (l.rx.inFrame = false → exec .frameTimeLimit s = .next s) ∧
    (l.inBreak = true → exec .breakEnd s = .next
      { s with dev.blk.line.inBreak := false, dev.blk.line.idle := false, dev.blk.line.rx := .waitIdle }) ∧
    (l.inBreak = false → exec .breakEnd s = .next s) ∧
    exec .haltBreakEnd s = .next { s with dev.blk.line.halting := false } ∧
    exec .yieldClear s = .next { s with dev.blk.line.yielding := false } ∧
    (∀ d, l.restT = some d → exec .lineRestExpiry s = .next
      { s with dev.blk.now := max s.dev.blk.now d, dev.blk.line.restT := none }) ∧
    (l.restT = none → exec .lineRestExpiry s = .next s)

/-- TRANSMIT_START (R16, R51, R52): when every condition holds, the first frame in queue order that may start becomes
IN_EMISSION; a change frame may start only while the replica is CURRENT, and nothing starts in the listen window. The GEN is
filled at this moment: the model's choice (log 11). -/
def Obligations.TransmitterStartsTheFirstFrame : Prop :=
  ∀ s : State,
    let l := s.dev.blk.line
    let free : Prop := l.idle = true ∧ l.yielding = false ∧ l.restT = none ∧ s.dev.blk.pres.mem ≠ .inert ∧
      s.dev.blk.pres.mem ≠ .mute ∧ s.dev.blk.pres.mem ≠ .outside .listen ∧ ∀ e ∈ l.queue, e.inEmission = false
    let held (e : OutEntry) : Prop := e.frame.kind.isChange = true ∧ s.dev.shop.state ≠ .current
    (free → ∀ before e after, l.queue = before ++ e :: after → (∀ x ∈ before, held x) → ¬ held e →
      exec .transmitStart s = .next
        { s with
          dev.blk.line.queue := before ++ { e with inEmission := true } :: after
          dev.blk.line.idle := false
          dev.blk.line.txDone := none
          dev.blk.line.tx := frameChars s.dev.blk.pres.station
            (if e.frame.kind.isChange then s.dev.shop.gen + 1 else s.dev.shop.gen) e.frame }) ∧
    (free → (∀ x ∈ l.queue, held x) → exec .transmitStart s = .next s) ∧
    (¬ free → exec .transmitStart s = .next s)

/-- ARBITRATION_LOST (R17) and COLLISION (R18, R20): the frame returns to WAITING at its place; a loss is no failure, a
collision counts as one, and the eighth posts LINE_FAULT and starts the line rest of 1.0 s. A REBASE (R46) or a BUDGET
(R114, R115) whose withdrawal was refused is withdrawn when its attempt has failed, the BUDGET also replaced. A REJOIN that
waits takes effect (R23), a completed frame being taken first (log 10), stated over a saw whose plan copy has the need of its
thickness (`StepKeepsTheSawLaws`). With no frame in emission nothing ends (log 3). -/
def Obligations.FailedAttemptsReturnToWaiting : Prop :=
  (∀ (s : State) (c : Instr), s.dev.blk.host.rejoinPending = false → s.dev.blk.line.emitting = none →
    c = .arbitrationLost ∨ c = .collision ∨ c = .sendCompleted → exec c s = .next s) ∧
  ∀ (s : State) (e : OutEntry), s.dev.blk.line.emitting = some e →
    let b := s.dev.blk
    let lost : State :=
      { s with
        dev.blk.line.queue := b.line.queue.map (fun x => { x with inEmission := false, again := false })
        dev.blk.line.tx := [] }
    let failed : State :=
      { lost with
        dev.blk := if b.line.failures < 7 then { lost.dev.blk with line.failures := b.line.failures + 1 }
          else Blocks.post (.lineFault .collision)
            { lost.dev.blk with line.failures := 0, line.restT := some (b.now + 1000) } }
    let both (p : State → Prop) : Prop := Gives (exec .arbitrationLost s) p ∧ Gives (exec .collision s) p
    (b.host.rejoinPending = false →
      (e.again = false ∨ (e.frame.kind ≠ .rebase ∧ e.frame.kind ≠ .budget) →
        exec .arbitrationLost s = .next lost ∧ exec .collision s = .next failed) ∧
      (e.again = true → e.frame.kind = .rebase → exec .arbitrationLost s = .next lost ∧
        exec .collision s = .next { failed with dev.blk.line := failed.dev.blk.line.withdraw .table isRebase true }) ∧
      (e.again = true → e.frame.kind = .budget → b.pres.role = .plant → s.isLive → b.plant.standby = false →
        (b.plant.band = some .halt → b.plant.published = some 0 → b.plant.lastSent = 0 →
          both (fun t => t.dev.blk.line.heldBudget = none)) ∧
        (∀ v, b.plant.published = some v → b.plant.band ≠ none → b.plant.band ≠ some .halt → v ≤ 8000 →
          e.producer = .plant → v ≠ budgetValue e.frame →
          (∀ w ∈ b.line.frames, w.producer = .plant → w.frame.kind = .budget → w.frame = e.frame) →
          both (fun t => t.dev.blk.line.heldBudget = some v ∧ t.dev.blk.plant.lastSent = v)))) ∧
    (b.saw.planLaw = true → b.host.rejoinPending = true → b.line.txDone = none → both (fun t =>
      t.dev.blk.line.queue = [] ∧ t.dev.blk.line.waitList = [] ∧ t.dev.blk.line.backlog = [] ∧
        t.dev.blk.pres.mem = .outside .listen ∧ t.dev.shop.state = .empty ∧ t.dev.blk.host.rejoinPending = false))

/-- SEND_COMPLETED (R19) of every kind but SYNC_ASK and SNAP: the entry leaves the queue, the failure count returns to 0,
the yield flag is set, a running HELLO timer restarts (R58); a freed slot goes to a frame that waits (R14). The completed
kind is kept until the frame is taken (log 2). -/
def Obligations.CompletedFrameLeavesTheQueue : Prop :=
  ∀ (s : State) (e : OutEntry), s.dev.blk.line.emitting = some e →
    e.frame.kind ≠ .syncAsk → e.frame.kind ≠ .snap → s.dev.blk.line.backlog = [] →
    let l := s.dev.blk.line
    let rest := l.queue.filter (fun x => !x.inEmission)
    let done (queue : List OutEntry) (waitList : List Waiter) (nextOrder : Nat) : State :=
      { s with
        dev.blk.line :=
          { l with
            queue := queue, waitList := waitList, nextOrder := nextOrder, tx := [], failures := 0, yielding := true
            txDone := some e.frame.kind }
        dev.blk.pres.helloT := if s.dev.blk.pres.helloT.isSome then some (s.dev.blk.now + 1000) else none }
    (l.waitList = [] → exec .sendCompleted s = .next (done rest [] l.nextOrder)) ∧
    (∀ w, l.waitList = [w] → rest.length < 12 → exec .sendCompleted s = .next
      (done (insertEntry { frame := w.frame, producer := w.producer, order := l.nextOrder, inEmission := false, again := false }
        rest) [] (l.nextOrder + 1)))

/-- The completion of a SYNC_ASK starts the ask timer of a station whose replica is not CURRENT (R30), and that of the
stream's SNAP moves the stream on: the next SNAP is offered with one sequence number more, or END ends it (R35). A stream
position names its record, and the position past a record follows it (R33, R35). -/
def Obligations.StreamMovesThroughTheReplica : Prop :=
  (∀ (s : State) (e : OutEntry), s.dev.blk.line.emitting = some e → s.dev.blk.line.waitList = [] →
      s.dev.blk.line.backlog = [] → s.dev.blk.host.rejoinPending = false → s.dev.blk.pres.mem ≠ .mute →
      s.dev.blk.pres.mem ≠ .inert → s.dev.blk.line.queue.length ≤ 12 →
      let rest := s.dev.blk.line.queue.filter (fun x => !x.inEmission)
      (e.frame.kind = .syncAsk → s.dev.shop.state ≠ .current →
        Gives (exec .sendCompleted s) (fun t =>
          t.dev.blk.pres.askT = some (s.dev.blk.now + 1000) ∧ t.dev.blk.line.queue = rest ∧ t.dev.shop = s.dev.shop)) ∧
      (∀ x : Stream, e.frame.kind = .snap → s.dev.blk.asking.stream = some x → e.frame.target = x.asker →
        e.frame.payload = x.sent →
        (x.carried = .fin → Gives (exec .sendCompleted s) (fun t =>
          t.dev.blk.asking.stream = none ∧ t.dev.blk.line.queue = rest ∧ t.dev.shop = s.dev.shop)) ∧
        (x.carried ≠ .fin → Gives (exec .sendCompleted s) (fun t =>
          let found := s.dev.shop.rep.recordAt x.carried.past
          t.dev.blk.asking.stream = some
            { asker := x.asker, pos := x.carried.past, seq := x.seq + 1, lastDone := x.carried.section
              carried := found.1, sent := snapPayload (x.seq + 1) found.2 } ∧
          t.dev.blk.line.queue = insertEntry
            { frame := { kind := .snap, target := x.asker, payload := snapPayload (x.seq + 1) found.2 }
              producer := .table, order := s.dev.blk.line.nextOrder, inEmission := false, again := false } rest ∧
          t.dev.shop = s.dev.shop)))) ∧
  ∀ r : Replica,
    (∀ i m, r.members[i]? = some m → r.recordAt (.member i) = (.member i, .member m)) ∧
    (∀ i, r.members[i]? = none → r.recordAt (.member i) = r.recordAt .head) ∧
    r.recordAt .head = (.head, .head r.ledger.budget r.ledger.plant) ∧
    (∀ j e, r.ledger.entries[j]? = some e → r.recordAt (.entry j) = (.entry j, .entry e)) ∧
    (∀ j, r.ledger.entries[j]? = none → r.recordAt (.entry j) = r.recordAt (.slab 0)) ∧
    (Slots.wf r.slabs = true → ∀ k n x, k ≤ n → Slots.get n r.slabs = some x →
      (∀ m, k ≤ m → m < n → Slots.get m r.slabs = none) → r.recordAt (.slab k) = (.slab n, .slab n x)) ∧
    (Slots.wf r.slabs = true → ∀ k, (∀ m, k ≤ m → Slots.get m r.slabs = none) → r.recordAt (.slab k) = r.recordAt (.job 0)) ∧
    (Slots.wf r.jobs = true → ∀ k n x, k ≤ n → Slots.get n r.jobs = some x →
      (∀ m, k ≤ m → m < n → Slots.get m r.jobs = none) → r.recordAt (.job k) = (.job n, .job n x)) ∧
    (Slots.wf r.jobs = true → ∀ k, (∀ m, k ≤ m → Slots.get m r.jobs = none) → r.recordAt (.job k) = r.recordAt .fin) ∧
    r.recordAt .fin = (.fin, .fin r.members.length r.ledger.entries.length r.slabs.length r.jobs.length) ∧
    (∀ i, Pos.past (.member i) = .member (i + 1)) ∧ Pos.past .head = .entry 0 ∧
    (∀ j, Pos.past (.entry j) = .entry (j + 1)) ∧ (∀ n, Pos.past (.slab n) = .slab (n + 1)) ∧
    (∀ n, Pos.past (.job n) = .job (n + 1))

/-- BREAK_EVENT (R3, R94): the budget and every grant go to 0, the sequencer's grant with them, an incoming frame is BROKEN,
also one whose dominant stop bit began the run (log 21), and the generation stands; a second event of one run has no effect
(log 3). An emission ends as a BREAK attempt: a send failure, at the eighth LINE_FAULT with kind BREAK and the line rest of
1.0 s (R18, R20); LINE_FAULT stands first among the notices of the break, which is the model's order (log 6). The yield flag
stands (log 37). The plant unit of a replica that is not EMPTY takes the ledger's budget as its last sent value (R96, log
22), stated over a sound shop state (`StepKeepsTheShopState`); the rest and the clock stand by log 4. -/
def Obligations.BreakEventDrainsTheLedger : Prop :=
  ∀ s : State, s.dev.blk.pres.mem ≠ .inert →
    let b := s.dev.blk
    let l := b.line
    let drained (l : Ledger) : Ledger :=
      { l with budget := 0, entries := l.entries.map (fun e => { e with granted := 0 }) }
    let failure (t : State) : Prop :=
      if l.emitting = none then t.dev.blk.line.failures = l.failures ∧ t.dev.blk.line.restT = l.restT
      else if l.failures < 7 then t.dev.blk.line.failures = l.failures + 1 ∧ t.dev.blk.line.restT = l.restT
      else t.dev.blk.line.failures = 0 ∧ t.dev.blk.line.restT = some (b.now + 1000) ∧ s.posts t (.lineFault .broke)
    let plant (t : State) : Prop :=
      (s.dev.shop.sound = true → b.pres.role = .plant → s.dev.shop.state ≠ .empty →
        ¬ s.isLive ∨ b.plant.published = none → t.dev.blk.plant.lastSent = t.dev.shop.rep.ledger.budget) ∧
      (s.dev.shop.state = .empty → l.emitting = none → t.dev.blk.plant = b.plant)
    let broken (t : State) : Prop :=
      t.pending = s.pending ∧ t.dev.blk.line.inBreak = true ∧ t.dev.blk.line.idle = false ∧
        t.dev.blk.line.rx = .waitIdle ∧ (∀ e ∈ t.dev.blk.line.queue, e.inEmission = false) ∧
        t.dev.blk.line.lastDiscard = (if l.rx.inFrame || l.badStop then some .broken else l.lastDiscard) ∧
        t.dev.blk.line.yielding = l.yielding ∧ t.dev.blk.saw.grant = 0 ∧
        t.dev.blk.now = b.now ∧ t.dev.blk.selLow = b.selLow ∧ t.dev.blk.stop = b.stop ∧
        t.dev.blk.host.exchange = b.host.exchange ∧ t.dev.blk.host.reply = b.host.reply ∧
        t.dev.blk.host.cursor = b.host.cursor ∧ t.dev.blk.saw.enc = b.saw.enc ∧ failure t ∧ plant t
    (l.inBreak = true → exec .breakEvent s = .next s) ∧
    (l.inBreak = false → b.host.rejoinPending = false →
      (s.dev.shop.build = none → Gives (exec .breakEvent s) (fun t => broken t ∧
        t.dev.shop = { s.dev.shop with rep.ledger := drained s.dev.shop.rep.ledger })) ∧
      (∀ x, s.dev.shop.build = some x →
        let kept : Build := { x with aside := { x.aside with ledger := drained x.aside.ledger } }
        (x.reached < 2 → Gives (exec .breakEvent s) (fun t => broken t ∧
          t.dev.shop = { s.dev.shop with build := some kept })) ∧
        (x.reached = 2 → Gives (exec .breakEvent s) (fun t => broken t ∧
          t.dev.shop = { state := x.asideState, gen := x.asideGen, rep := kept.aside, build := none })) ∧
        (2 < x.reached → Gives (exec .breakEvent s) (fun t => broken t ∧
          t.dev.shop =
            { s.dev.shop with rep.ledger := drained s.dev.shop.rep.ledger, build := some kept }))))

/-! ## Change frames -/

/-- A taken change frame at a CURRENT, an EMPTY and a STALE replica (R25, R26, R27, R72): a CURRENT replica takes its
successor's GEN and the judged content, or falls STALE on a gap; an EMPTY or STALE replica applies nothing. A BUILDING one
is `BuildTakesChangeFrames`. -/
def Obligations.ChangeFramesMoveTheGeneration : Prop :=
  ∀ (k : Kind) (sender target : BitVec 4) (g : Word16) (p : List Byte) (s : State),
    k.isChange = true → s.hears sender p →
    let o := exec (k.command sender target g p) s
    let out := judgeFrame (Ctx.whole g) sender.toNat k p s.dev.shop.rep
    (s.dev.shop.state = .current → g = s.dev.shop.gen + 1 → s.becomes g out.rep o) ∧
    (s.dev.shop.state = .current → g = s.dev.shop.gen + 1 → out.void.isSome = true → s.becomes g s.dev.shop.rep o) ∧
    (s.dev.shop.state = .current → g ≠ s.dev.shop.gen + 1 →
      Gives o (fun t => t.dev.shop = { s.dev.shop with state := .stale } ∧ KeptByFrames s t ∧
        t.dev.blk.asking.stream = none)) ∧
    (s.dev.shop.state = .empty ∨ s.dev.shop.state = .stale →
      Gives o (fun t => t.dev.shop = s.dev.shop ∧ KeptByFrames s t) ∧
      (sender.toNat ≠ s.dev.blk.pres.station → o = .next (s.headed sender.toNat)))

/-- What a taken change frame of another station leaves alone, the station serving no stream, having no report to make
and holding no two job records of one number (`StepKeepsTheShopState`) in the first two. A void one moves the
generation and, beside what its head does, nothing else (R26). A ledger frame that does not move a CUTTER's own
effective grant moves nothing but the ledger (R100; log 56 for a station that is not LIVE). A stock or job frame
leaves the saw, the measurement unit and the plant unit, but for a JOB_OPEN that may seal a plan in PLANNING (R28,
R131). -/
def Obligations.PeerFramesLeaveTheRestAlone : Prop :=
  ∀ (k : Kind) (sender target : BitVec 4) (g : Word16) (p : List Byte) (s : State),
    k.isChange = true → s.takes g sender p → sender.toNat ≠ s.dev.blk.pres.station →
    let b := s.dev.blk
    let o := exec (k.command sender target g p) s
    let out := judgeFrame (Ctx.whole g) sender.toNat k p s.dev.shop.rep
    let sh : Shop := { s.dev.shop with gen := g, rep := out.rep }
    (b.asking.stream = none → (∀ x ∈ b.cost.lines, x.2.state ≠ .due) →
      (s.dev.shop.rep.allJobs.map (fun j => j.number)).Nodup →
      (out.void.isSome = true → o = .next { s.headed sender.toNat with dev.shop.gen := g }) ∧
      (k = .budget ∨ k = .flowAsk ∨ k = .flowDrop → b.pres.role = .cutter → effGrant sh b = effGrant s.dev.shop b →
        o = .next { s.headed sender.toNat with dev.shop := sh })) ∧
    (k.cls = 4 ∨ k.cls = 5 → k ≠ .jobOpen ∨ b.planner.plan = none → Gives o (fun t =>
      t.dev.blk.saw = b.saw ∧ t.dev.blk.meas = b.meas ∧ t.dev.blk.plant = b.plant ∧
      t.dev.blk.pres = { b.pres with heard := Slots.set sender.toNat b.now b.pres.heard }))

/-- A change frame at a BUILDING replica (R40 to R43): the expected generation moves on with it, or the build is abandoned
and the station asks again (R45). A frame on the section in progress abandons it, unless the frame is void whatever that
section holds (R41; log 13); one on a section to come is ignored; one on a complete section is applied. The stock and the
job table are judged by their stream marks while their sections are to come or in progress (R42), and what they cannot yet
show abandons the build (R43). The model's choices in it: the generation register keeps the value set aside while BUILDING
(log 7), and the ask timer stands stopped after an abandoned build (log 9). -/
def Obligations.BuildTakesChangeFrames : Prop :=
  ∀ (k : Kind) (sender target : BitVec 4) (g : Word16) (p : List Byte) (s : State) (x : Build),
    k.isChange = true → s.hears sender p → s.dev.shop.state = .building → s.dev.shop.build = some x →
    let r := s.dev.shop.rep
    let n := sender.toNat
    let o := exec (k.command sender target g p) s
    let whole := (judgeFrame (Ctx.whole g) n k p r).rep
    let stays (r' : Replica) : Prop :=
      let sh : Shop := { s.dev.shop with rep := r', build := some { x with expGen := g } }
      Gives o (fun t => t.dev.shop = sh ∧ KeptByFrames s t) ∧
        (n ≠ s.dev.blk.pres.station → o = .next { s.headed n with dev.shop := sh })
    let back : Prop := Gives o (fun t => KeptByFrames s t ∧ t.dev.blk.pres.askT = none ∧
      t.dev.shop = { state := x.asideState, gen := x.asideGen, rep := x.aside, build := none } ∧
      (t.dev.blk.pres.mem.sends = true → x.asideState ≠ .current → t.dev.blk.line.heldWaiting .table isSyncAsk = true))
    let limit (done : Bool) (all : Nat) (mark : Option Nat) : Nat :=
      if done then all else match mark with | none => 0 | some m => m + 1
    let slabLimit := limit (decide (3 < x.reached)) 160 x.slabMark
    let jobLimit := limit (decide (4 < x.reached)) 48 x.jobMark
    (g ≠ x.expGen + 1 → back) ∧
    (g = x.expGen + 1 → parseChange k p = none → stays r) ∧
    (∀ ch, g = x.expGen + 1 → parseChange k p = some ch →
      (x.reached = 1 →
        (k = .budget ∨ k = .flowAsk ∨ k = .flowDrop → stays r) ∧ (k = .join ∨ k = .gone → back)) ∧
      (x.reached = 2 →
        (∀ v, ch = .budget v →
          if roleOf n r = some .plant ∧ (r.ledger.plant = none ∨ r.ledger.plant = some n) then back else stays r) ∧
        (∀ q, ch = .flowAsk q → if memberOf n r = true then back else stays r) ∧
        (ch = .flowDrop → if memberOf n r = true then back else stays whole) ∧
        (∀ role, ch = .join role → if memberOf n r = true then back
          else stays { r with members := addMember { station := n, role := role } r.members }) ∧
        (∀ a, ch = .gone a → if memberOf a r = true then back else stays r)) ∧
      (3 ≤ x.reached → k.cls ≤ 3 → stays whole) ∧
      (3 < x.reached → k.cls = 4 → stays whole) ∧
      (k = .release ∨ k = .reclaim ∨ k = .freeOrphan ∨ k = .scrap ∨ k = .jobClose ∨ k = .costReport → stays whole) ∧
      (∀ i, ch = .claim i → x.reached ≤ 3 →
        if (∃ y, r.slab? i = some y ∧ y.state = .free) ∧ memberOf n r = true ∧ ∀ y ∈ r.allSlabs, y.holder ≠ some n
        then back else stays r) ∧
      (∀ serial m t l w rack rate, ch = .slabAdd serial m t l w rack rate → x.reached ≤ 3 → Slots.wf r.slabs = true →
        let new := sheetSlab n serial m t l w rack rate
        ((∃ y ∈ r.allSlabs, y.id = new.id) → stays r) ∧
        (∀ slot, (∀ y ∈ r.allSlabs, y.id ≠ new.id) → lowestEmpty slot r.slabs →
          if slot < slabLimit then stays { r with slabs := Slots.set slot new r.slabs }
          else stays { r with looseSlabs := r.looseSlabs ++ [new] })) ∧
      (∀ i abandoned total rs, ch = .consume i abandoned total rs → x.reached ≤ 3 → Slots.wf r.slabs = true →
        (∀ slot, r.slab? i = none → lowestEmpty slot r.slabs → if slot < slabLimit then back else stays r) ∧
        (∀ y, r.slab? i = some y →
          (y.state = .claimed → y.holder = some n →
            total + (rs.map (fun m => m.length * m.width)).sum ≤ y.length * y.width →
            ∃ r', recordsRemnants slabLimit true (rs.map (remnantSlab n y)) (r.dropSlab i) r' ∧ stays r') ∧
          (y.state ≠ .claimed ∨ y.holder ≠ some n ∨
            y.length * y.width < total + (rs.map (fun m => m.length * m.width)).sum → stays r))) ∧
      (∀ j, ch = .jobOpen j → x.reached ≤ 4 → Slots.wf r.jobs = true →
        (∀ y, r.job? j = some y → y.state ≠ .closed → stays r) ∧
        (∀ y, r.job? j = some y → y.state = .closed → stays (r.onJob j (fun _ => freshJob j n))) ∧
        (∀ slot, r.job? j = none → lowestEmpty slot r.jobs →
          if slot < jobLimit then stays { r with jobs := Slots.set slot (freshJob j n) r.jobs }
          else if ∃ y ∈ r.allJobs, y.state = .closed then back
          else stays { r with looseJobs := r.looseJobs ++ [freshJob j n] })))

/-- Cutback (R92): the excess comes off the newest entries first, each entry is cut only when every newer one stands
at 0, no asked value and no order moves, and the sum ends at the budget. Top-up (R93) after it: short entries are raised oldest
first by their shortfall or the room; then no entry is short while there is room. -/
def Obligations.CutbackAndTopUpSettleTheLedger : Prop :=
  (∀ l : Ledger,
      l.cutback.budget = l.budget ∧ l.cutback.plant = l.plant ∧
      l.cutback.entries.map (fun e => (e.station, e.asked)) = l.entries.map (fun e => (e.station, e.asked)) ∧
      (grantSum l.entries ≤ l.budget → l.cutback = l) ∧
      (l.budget < grantSum l.entries → grantSum l.cutback.entries = l.budget) ∧
      (∀ (i : Nat) (e e' : Entry), l.entries[i]? = some e → l.cutback.entries[i]? = some e' →
        e'.granted ≤ e.granted ∧
        (e'.granted < e.granted → ∀ (j : Nat) (f : Entry), i < j → l.cutback.entries[j]? = some f → f.granted = 0))) ∧
  ∀ l : Ledger, grantSum l.entries ≤ l.budget →
    l.topUp.budget = l.budget ∧ l.topUp.plant = l.plant ∧
    l.topUp.entries.map (fun e => (e.station, e.asked)) = l.entries.map (fun e => (e.station, e.asked)) ∧
    grantSum l.topUp.entries ≤ l.budget ∧
    (grantSum l.topUp.entries = l.budget ∨ ∀ e ∈ l.topUp.entries, e.asked ≤ e.granted) ∧
    (∀ (i : Nat) (e e' : Entry), l.entries[i]? = some e → l.topUp.entries[i]? = some e' →
      e.granted ≤ e'.granted ∧ (e.granted < e'.granted → e'.granted ≤ e.asked) ∧
      (e'.granted < e'.asked → ∀ (j : Nat) (f f' : Entry), i < j → l.entries[j]? = some f →
        l.topUp.entries[j]? = some f' → f'.granted = f.granted))

/-- BUDGET (R89): void from a station that is no PLANT member, while another station is the plant, and with a value
out of range; else the sender is the plant, the budget is the value, and cutback and top-up run. -/
def Obligations.BudgetFrameSetsTheBudget : Prop :=
  ∀ (sender : BitVec 4) (g : Word16) (p : List Byte) (s : State), s.takes g sender p →
    let r := s.dev.shop.rep
    let o := exec (.budget sender g p) s
    (∀ a b : Byte, p = [a, b] → be16 a b ≤ 8000 → roleOf sender.toNat r = some .plant →
      r.ledger.plant = none ∨ r.ledger.plant = some sender.toNat →
      s.becomes g
        { r with ledger := Ledger.topUp (Ledger.cutback { r.ledger with budget := be16 a b, plant := some sender.toNat }) } o) ∧
    (roleOf sender.toNat r ≠ some .plant → s.becomes g r o) ∧
    (∀ x, r.ledger.plant = some x → x ≠ sender.toNat → s.becomes g r o) ∧
    ((∀ a b : Byte, p = [a, b] → 8000 < be16 a b) → s.becomes g r o)

/-- FLOW_ASK (R90) and FLOW_DROP (R91), with the payload tests of R197. -/
def Obligations.FlowFramesMoveTheSendersEntry : Prop :=
  ∀ (sender : BitVec 4) (g : Word16) (p : List Byte) (s : State), s.takes g sender p →
    let r := s.dev.shop.rep
    let others := r.ledger.entries.filter (fun e => e.station != sender.toNat)
    let ask := exec (.flowAsk sender g p) s
    let drop := exec (.flowDrop sender g p) s
    (∀ a b : Byte, p = [a, b] → within 100 2000 (be16 a b) = true → memberOf sender.toNat r = true →
      s.becomes g
        { r with
          ledger := Ledger.topUp (Ledger.cutback
            { r.ledger with
              entries := others ++
                [{ station := sender.toNat, asked := be16 a b, granted := min (be16 a b) (r.ledger.budget - grantSum others) }] }) }
        ask) ∧
    (memberOf sender.toNat r = false → s.becomes g r ask) ∧
    ((∀ a b : Byte, p = [a, b] → within 100 2000 (be16 a b) = false) → s.becomes g r ask) ∧
    (p = [] → (∃ e ∈ r.ledger.entries, e.station = sender.toNat) →
      s.becomes g { r with ledger := Ledger.topUp { r.ledger with entries := others } } drop) ∧
    (p ≠ [] ∨ (∀ e ∈ r.ledger.entries, e.station ≠ sender.toNat) → s.becomes g r drop)

/-- GONE (R61, R78, R95, R169) and JOIN (R55): the whole effect of a member's leaving, and of its entry; a GONE whose number
is not 1 to 15 is void (R197). -/
def Obligations.JoinAndGoneMoveTheMemberSet : Prop :=
  ∀ (sender : BitVec 4) (g : Word16) (p : List Byte) (s : State), s.takes g sender p →
    let r := s.dev.shop.rep
    let topped (x : Nat) : Ledger :=
      if r.ledger.entries.any (fun e => e.station == x) then
        Ledger.topUp { r.ledger with entries := r.ledger.entries.filter (fun e => e.station != x) }
      else r.ledger
    let orphaned (x : Nat) (y : Slab) : Slab :=
      if y.state = .claimed ∧ y.holder = some x then { y with state := .orphaned } else y
    let struck (x : Nat) (j : Job) : Job :=
      if j.state = .closing ∧ x ∈ j.pending then
        if j.pending.filter (· != x) = [] then { j with pending := [], short := true, state := .closed, closing := some g }
        else { j with pending := j.pending.filter (· != x), short := true }
      else j
    let left (x : Nat) : Replica :=
      { members := r.members.filter (fun m => m.station != x)
        ledger :=
          if r.ledger.plant = some x then
            { budget := 0, plant := none
              entries := (r.ledger.entries.filter (fun e => e.station != x)).map (fun e => { e with granted := 0 }) }
          else topped x
        slabs := r.slabs.map (fun y => (y.1, orphaned x y.2))
        jobs := r.jobs.map (fun j => (j.1, struck x j.2))
        looseSlabs := r.looseSlabs.map (orphaned x)
        looseJobs := r.looseJobs.map (struck x) }
    let gone := exec (.gone sender g p) s
    let join := exec (.join sender g p) s
    (∀ a : Byte, p = [a] →
      (within 1 15 a.toNat = true → memberOf a.toNat r = true → s.becomes g (left a.toNat) gone) ∧
      (within 1 15 a.toNat = false ∨ memberOf a.toNat r = false → s.becomes g r gone)) ∧
    (p.length ≠ 1 → s.becomes g r gone) ∧
    (∀ role : Role, p = [byte1 role.code] →
      (memberOf sender.toNat r = false →
        s.becomes g { r with members := addMember { station := sender.toNat, role := role } r.members } join) ∧
      (memberOf sender.toNat r = true →
        s.becomes g
          { left sender.toNat with
            members := addMember { station := sender.toNat, role := role } (left sender.toNat).members } join))

/-- SLAB_ADD (R73): void for a field out of range, for an id that is present, and for a full table; else a FREE SHEET
record stands in the lowest empty slot (R70). -/
def Obligations.SlabAddFrameInsertsASheet : Prop :=
  ∀ (sender : BitVec 4) (g : Word16) (serial material thickness length width rack rate : Nat) (s : State),
    let p := slabAddPayload serial material thickness length width rack rate
    s.takes g sender p → serial < 65536 → material < 256 → thickness < 256 → length < 65536 → width < 65536 →
    rack < 256 → rate < 65536 → Slots.wf s.dev.shop.rep.slabs = true →
    let r := s.dev.shop.rep
    let o := exec (.slabAdd sender g p) s
    let id : SlabId := { origin := sender.toNat, serial := serial }
    let inRange := within 1 4095 serial && within 1 250 material && within 12 60 thickness &&
      within 100 4000 length && within 100 2200 width
    (∀ n, inRange = true → (∀ x ∈ r.allSlabs, x.id ≠ id) → n < 160 → lowestEmpty n r.slabs →
      s.becomes g
        { r with
          slabs := Slots.set n
            { id := id, kind := .sheet, parent := none, material := material, thickness := thickness
              length := length, width := width, rack := rack, rate := rate, state := .free, holder := none } r.slabs } o) ∧
    (inRange = false → s.becomes g r o) ∧
    ((∃ x ∈ r.allSlabs, x.id = id) → s.becomes g r o) ∧
    ((∀ n, n < 160 → (Slots.get n r.slabs).isSome = true) → s.becomes g r o)

/-- CLAIM (R75), RELEASE (R77), RECLAIM (R79), FREE_ORPHAN (R80) and SCRAP (R82). -/
def Obligations.StockFramesMoveTheirRecord : Prop :=
  ∀ (sender : BitVec 4) (g : Word16) (p : List Byte) (s : State), s.takes g sender p →
    let r := s.dev.shop.rep
    let set (i : SlabId) (st : SlabState) (holder : Option Nat) : Replica :=
      r.onSlab i (fun y => { y with state := st, holder := holder })
    let frames : List (Host.Outcome State Fault Refusal) :=
      [exec (.claim sender g p) s, exec (.release sender g p) s, exec (.reclaim sender g p) s,
        exec (.freeOrphanFrame sender g p) s, exec (.scrap sender g p) s]
    (∀ (a b : Byte) (i : SlabId) (x : Slab), p = [a, b] → SlabId.ofCode (be16 a b) = some i → r.slab? i = some x →
      let member := memberOf sender.toNat r = true
      let claim : Prop := x.state = .free ∧ member ∧ ∀ y ∈ r.allSlabs, y.holder ≠ some sender.toNat
      let release : Prop := x.state = .claimed ∧ x.holder = some sender.toNat
      let reclaim : Prop := x.state = .orphaned ∧ x.holder = some sender.toNat ∧ member
      (claim → s.becomes g (set i .claimed (some sender.toNat)) (exec (.claim sender g p) s)) ∧
      (¬ claim → s.becomes g r (exec (.claim sender g p) s)) ∧
      (release → s.becomes g (set i .free none) (exec (.release sender g p) s)) ∧
      (¬ release → s.becomes g r (exec (.release sender g p) s)) ∧
      (reclaim → s.becomes g (r.onSlab i (fun y => { y with state := .claimed })) (exec (.reclaim sender g p) s)) ∧
      (¬ reclaim → s.becomes g r (exec (.reclaim sender g p) s)) ∧
      (x.state = .orphaned → s.becomes g (set i .free none) (exec (.freeOrphanFrame sender g p) s)) ∧
      (x.state ≠ .orphaned → s.becomes g r (exec (.freeOrphanFrame sender g p) s)) ∧
      (x.state = .free →
        s.becomes g
          { r with
            slabs := r.slabs.filter (fun y => y.2.id != i), looseSlabs := r.looseSlabs.filter (fun y => y.id != i) }
          (exec (.scrap sender g p) s)) ∧
      (x.state ≠ .free → s.becomes g r (exec (.scrap sender g p) s))) ∧
    (∀ (a b : Byte) (i : SlabId), p = [a, b] → SlabId.ofCode (be16 a b) = some i → r.slab? i = none →
      ∀ o ∈ frames, s.becomes g r o) ∧
    (idPayload p = none → ∀ o ∈ frames, s.becomes g r o)

/-- CONSUME (R83, R84): void unless the parent is CLAIMED by the sender and its area holds the pieces and remnants; the
parent is removed, and each remnant, none to three of them in their order, is recorded FREE in the lowest empty slot, unless
its id is held or no slot is empty. -/
def Obligations.ConsumeFrameLeavesItsRemnants : Prop :=
  ∀ (sender : BitVec 4) (g : Word16) (i : SlabId) (abandoned : Bool) (total : Nat) (rs : List Remnant) (s : State),
    let p := consumePayload i abandoned total rs
    s.takes g sender p → i.lawful = true → total ≤ 8800000 → rs.length ≤ 3 → (∀ m ∈ rs, m.lawful = true) →
    Slots.wf s.dev.shop.rep.slabs = true →
    let r := s.dev.shop.rep
    let o := exec (.consume sender g p) s
    let without : Replica :=
      { r with
        slabs := r.slabs.filter (fun y => y.2.id != i), looseSlabs := r.looseSlabs.filter (fun y => y.id != i) }
    let remnant (x : Slab) (m : Remnant) : Slab :=
      { id := { origin := sender.toNat, serial := m.serial }, kind := .remnant, parent := some i, material := x.material
        thickness := x.thickness, length := m.length, width := m.width, rack := x.rack, rate := x.rate, state := .free
        holder := none }
    (∀ x, r.slab? i = some x → x.state = .claimed → x.holder = some sender.toNat →
      total + (rs.map (fun m => m.length * m.width)).sum ≤ x.length * x.width →
      ∃ r', recordsRemnants 160 false (rs.map (remnant x)) without r' ∧ s.becomes g r' o) ∧
    (r.slab? i = none → s.becomes g r o) ∧
    (∀ x, r.slab? i = some x →
      x.state ≠ .claimed ∨ x.holder ≠ some sender.toNat ∨
        x.length * x.width < total + (rs.map (fun m => m.length * m.width)).sum → s.becomes g r o)

/-- JOB_OPEN (R165, R166): void while the job is OPEN or CLOSING; a CLOSED record is replaced in place, else the lowest
empty slot takes the record, else the oldest CLOSED record makes room, one with no closing generation counting as the
newest, which is the model's choice (log 46). JOB_CLOSE (R167) and COST_REPORT (R168). -/
def Obligations.JobFramesMoveTheJobTable : Prop :=
  (∀ (sender : BitVec 4) (g : Word16) (p : List Byte) (s : State), s.takes g sender p →
      Slots.wf s.dev.shop.rep.jobs = true →
      let r := s.dev.shop.rep
      let o := exec (.jobOpen sender g p) s
      let fresh (n : Nat) : Job :=
        { number := n, state := .opened, opener := sender.toNat, closer := none, pending := [], short := false
          closing := none, tally := { stone := 0, waste := 0, cost := 0, water := 0, blade := 0, face := 0, pieces := 0 } }
      let age (x : Job) : Nat := match x.closing with | some c => (g - c).toNat | none => 0
      (∀ a b : Byte, p = [a, b] → be16 a b ≠ 0 →
        let n := be16 a b
        (∀ x, r.job? n = some x → x.state ≠ .closed → s.becomes g r o) ∧
        (∀ x, r.job? n = some x → x.state = .closed →
          s.becomes g (r.onJob n (fun _ => fresh n)) o) ∧
        (∀ k, r.job? n = none → k < 48 → lowestEmpty k r.jobs →
          s.becomes g { r with jobs := Slots.set k (fresh n) r.jobs } o) ∧
        (r.job? n = none → (∀ k, k < 48 → (Slots.get k r.jobs).isSome = true) →
          (∀ (k : Nat) (x : Job), (k, x) ∈ r.jobs → x.state = .closed →
            (∀ (j : Nat) (y : Job), (j, y) ∈ r.jobs → y.state = .closed →
              age y < age x ∨ (age y = age x ∧ k ≤ j)) →
            s.becomes g { r with jobs := Slots.set k (fresh n) r.jobs } o) ∧
          ((∀ y ∈ r.jobs, y.2.state ≠ .closed) → s.becomes g r o))) ∧
      ((∀ a b : Byte, p = [a, b] → be16 a b = 0) → s.becomes g r o)) ∧
  ∀ (sender : BitVec 4) (g : Word16) (n : Nat) (sums : Tally) (s : State), within 1 65535 n = true →
    sums.lawful = true → s.takes g sender (reportPayload n sums) →
    let r := s.dev.shop.rep
    let close := exec (.jobClose sender g (bytes2 n)) s
    let report := exec (.costReport sender g (reportPayload n sums)) s
    let cutterSet := (r.members.filter (fun m => m.role == .cutter)).map (fun m => m.station)
    let zero : Tally := { stone := 0, waste := 0, cost := 0, water := 0, blade := 0, face := 0, pieces := 0 }
    (r.job? n = none → s.becomes g r close ∧ s.becomes g r report) ∧
    (∀ x, r.job? n = some x →
      (x.state ≠ .opened → s.becomes g r close) ∧
      (x.state = .opened → cutterSet ≠ [] →
        s.becomes g (r.onJob n (fun y =>
          { y with state := .closing, closer := some sender.toNat, pending := cutterSet, tally := zero, closing := none })) close) ∧
      (x.state = .opened → cutterSet = [] →
        s.becomes g (r.onJob n (fun y =>
          { y with state := .closed, closer := some sender.toNat, pending := [], tally := zero, closing := some g })) close) ∧
      (x.state ≠ .closing ∨ sender.toNat ∉ x.pending → s.becomes g r report) ∧
      (x.state = .closing → sender.toNat ∈ x.pending →
        s.becomes g (r.onJob n (fun y =>
          let z := { y with tally := y.tally.add sums }
          let rest := y.pending.filter (· != sender.toNat)
          if y.state = .closing ∧ sender.toNat ∈ y.pending then
            if rest = [] then { z with pending := [], state := .closed, closing := some g } else { z with pending := rest }
          else z)) report))

/-! ## Presence, asking, serving and building -/

/-- HELLO (R57, R22): another station's head is all it is; the station's own, its sending completed, does nothing more; one
that names this station and is not its own posts DUPLICATE_STATION, and before MEMBER puts the station in MUTE (R63). There
the notice stands last among those of the step, after any that the frames discarded bring: the model's order (log 6). Which
frame is the station's own is told by log 2. -/
def Obligations.HelloFrameIsItsHead : Prop :=
  ∀ (sender : BitVec 4) (gen : Word16) (p : List Byte) (s : State), s.hears sender p →
    let o := exec (.hello sender gen p) s
    let l := s.dev.blk.line
    let headed := s.headed sender.toNat
    (sender.toNat ≠ s.dev.blk.pres.station → o = .next headed) ∧
    (sender.toNat = s.dev.blk.pres.station → l.emitting = none → l.txDone = some .hello → o = .next
      { s with
        dev.blk.line.rx := .waitIdle, dev.blk.line.idle := false, dev.blk.line.txDone := none
        dev.blk.line.badStop := false }) ∧
    (sender.toNat = s.dev.blk.pres.station → l.emitting = none → l.txDone ≠ some .hello →
      (s.dev.blk.pres.mem = .mute → o = .next headed) ∧
      (s.dev.blk.pres.mem = .member → o = .next
        { headed with dev.blk := headed.dev.blk.post (.duplicateStation .hello) }) ∧
      (∀ ph, s.dev.blk.pres.mem = .outside ph ∨ s.dev.blk.pres.mem = .joining →
        Gives o (fun t => t.dev.blk.pres.mem = .mute ∧ t.dev.blk.pres.listenT = none ∧ t.dev.blk.pres.askT = none ∧
          t.dev.blk.pres.helloT = none ∧ t.dev.blk.line.queue = [] ∧ t.dev.blk.line.waitList = [] ∧
          t.dev.blk.line.backlog = [] ∧ t.dev.blk.asking.stream = none ∧ t.dev.shop = s.dev.shop ∧ KeptByFrames s t ∧
          (s.dev.blk.host.notices.length + l.frames.length < 16 →
            t.dev.blk.host.notices.getLast? = some (.duplicateStation .hello)))))

/-- SYNC_ASK (R32, R46): a CURRENT station that serves no stream starts one to the asker with sequence number 0; any other,
and one in MUTE or in the listen window (R48, R52), keeps only the time; the station's own, its sending completed, does
nothing more. Which frame is its own is told by log 2. -/
def Obligations.SyncAskFrameStartsAStream : Prop :=
  ∀ (sender : BitVec 4) (gen : Word16) (p : List Byte) (s : State), s.hears sender p →
    let o := exec (.syncAsk sender gen p) s
    let headed := s.headed sender.toNat
    let heard : State :=
      { headed with dev.blk.asking.askHeard := Slots.set sender.toNat s.dev.blk.now s.dev.blk.asking.askHeard }
    let found := s.dev.shop.rep.recordAt (.member 0)
    let payload := snapPayload 0 found.2
    (sender.toNat ≠ s.dev.blk.pres.station →
      (s.dev.shop.state = .current → s.dev.blk.asking.stream = none → s.dev.blk.pres.mem ≠ .mute →
        s.dev.blk.pres.mem ≠ .outside .listen → o = .next
        { heard with
          dev.blk.asking.stream := some
            { asker := sender.toNat, pos := .member 0, seq := 0, lastDone := 0, carried := found.1, sent := payload }
          dev.blk.line := heard.dev.blk.line.offer .table { kind := .snap, target := sender.toNat, payload := payload } }) ∧
      (s.dev.shop.state ≠ .current ∨ s.dev.blk.asking.stream.isSome = true ∨ s.dev.blk.pres.mem = .mute ∨
        s.dev.blk.pres.mem = .outside .listen → o = .next heard)) ∧
    (sender.toNat = s.dev.blk.pres.station → s.dev.blk.line.emitting = none →
      s.dev.blk.line.txDone = some .syncAsk → o = .next
        { s with
          dev.blk.line.rx := .waitIdle, dev.blk.line.idle := false, dev.blk.line.txDone := none
          dev.blk.line.badStop := false })

/-- REBASE (R47): its own makes the replica, or the one set aside by a build, CURRENT as it stands; another station's makes
a CURRENT replica STALE, leaves an EMPTY or STALE one, and ends a build, which returns to what it set aside; the ask count
and the flag go back. Which frame is its own is told by log 2. -/
def Obligations.RebaseFrameSettlesTheReplica : Prop :=
  ∀ (sender : BitVec 4) (gen : Word16) (p : List Byte) (s : State), s.hears sender p →
    let o := exec (.rebase sender gen p) s
    let sh := s.dev.shop
    let cleared (t : State) : Prop := t.dev.blk.asking.count = 0 ∧ t.dev.blk.asking.failed = false ∧ KeptByFrames s t
    (sender.toNat = s.dev.blk.pres.station → s.dev.blk.line.emitting = none →
      s.dev.blk.line.txDone = some .rebase →
      (sh.state = .current → o = .next
        { s with
          dev.blk.line.rx := .waitIdle, dev.blk.line.idle := false, dev.blk.line.txDone := none
          dev.blk.line.badStop := false }) ∧
      (sh.state ≠ .current → sh.build = none → Gives o (fun t => cleared t ∧ t.dev.blk.pres.askT = none ∧
        t.dev.shop = { sh with state := .current })) ∧
      (∀ x, sh.state ≠ .current → sh.build = some x → Gives o (fun t => cleared t ∧ t.dev.blk.pres.askT = none ∧
        t.dev.shop = { state := .current, gen := x.asideGen, rep := x.aside, build := none }))) ∧
    (sender.toNat ≠ s.dev.blk.pres.station →
      (sh.state = .current → Gives o (fun t => cleared t ∧ t.dev.blk.asking.stream = none ∧
        t.dev.shop = { sh with state := .stale })) ∧
      (sh.state ≠ .current → sh.build = none → Gives o (fun t => cleared t ∧ t.dev.shop = sh)) ∧
      (∀ x, sh.state ≠ .current → sh.build = some x → Gives o (fun t => cleared t ∧
        t.dev.shop = { state := x.asideState, gen := x.asideGen, rep := x.aside, build := none })))

/-- SNAP (R11, R31, R37, R39, R40, R44, R45): skipped when it is directed elsewhere; a first SNAP begins a build; the
server's next SNAP fills it, its section no earlier in the order of R198; END completes it or gives it up, also as a first
SNAP; a SNAP out of place gives it up; a lower server's first SNAP begins anew. The model's choices in it: the generation
register keeps the value set aside while BUILDING (log 7), a build begins also in the listen window (log 8), and a record is
tested by itself (log 23), a JOB record whose own fields contradict each other being accepted (log 44). -/
def Obligations.SnapFrameBuildsTheReplica : Prop :=
  ∀ (sender target : BitVec 4) (gen : Word16) (seq : Nat) (rec : Record) (s : State),
    let p := snapPayload seq rec
    s.hears sender p → target ≠ 0 → sender.toNat ≠ s.dev.blk.pres.station → seq ≤ 239 → rec.lawful = true →
    let o := exec (.snap sender target gen p) s
    let sh := s.dev.shop
    let goes (sh' : Shop) : Prop := Gives o (fun t =>
      t.dev.shop = sh' ∧ t.dev.blk.asking.snapHeard = some s.dev.blk.now ∧ KeptByFrames s t)
    let isEnd : Prop := ∃ a b c d, rec = .fin a b c d
    let slabMark (old : Option Nat) : Option Nat := match rec with | .slab slot _ => some slot | _ => old
    let jobMark (old : Option Nat) : Option Nat := match rec with | .job slot _ => some slot | _ => old
    let first (aside : Replica) (asideState : ReplicaState) (asideGen : Word16) : Shop :=
      { state := .building, gen := asideGen, rep := Replica.blank.put rec
        build := some
          { server := sender.toNat, expGen := gen, expSeq := 1, reached := rec.section, slabMark := slabMark none
            jobMark := jobMark none, aside := aside, asideState := asideState, asideGen := asideGen } }
    let firstEnd (aside : Replica) (asideState : ReplicaState) (asideGen : Word16) (a b c d : Nat) : Shop :=
      if a = 0 ∧ b = 0 ∧ c = 0 ∧ d = 0 then { state := .current, gen := gen, rep := Replica.blank, build := none }
      else { state := asideState, gen := asideGen, rep := aside, build := none }
    (target.toNat ≠ s.dev.blk.pres.station → Gives o (fun t =>
      t.dev.shop = sh ∧ t.dev.blk.line.rx = .skip ∧ t.dev.blk.asking.snapHeard = some s.dev.blk.now ∧
      t.dev.blk.pres.heard = Slots.set sender.toNat s.dev.blk.now s.dev.blk.pres.heard ∧
      ∀ x, s.dev.blk.asking.stream = some x →
        t.dev.blk.asking.stream =
          if x.asker = target.toNat ∧ sender.toNat < s.dev.blk.pres.station then none else some x)) ∧
    (target.toNat = s.dev.blk.pres.station →
      (sh.state = .current → goes sh) ∧
      (sh.state = .empty ∨ sh.state = .stale → 0 < seq → goes sh) ∧
      (sh.state = .empty ∨ sh.state = .stale → seq = 0 →
        (¬ isEnd → goes (first sh.rep sh.state sh.gen)) ∧
        ∀ a b c d, rec = .fin a b c d → goes (firstEnd sh.rep sh.state sh.gen a b c d)) ∧
      (∀ x, sh.state = .building → sh.build = some x →
        let back : Shop := { state := x.asideState, gen := x.asideGen, rep := x.aside, build := none }
        let inPlace : Prop := gen = x.expGen ∧ seq = x.expSeq ∧ x.reached ≤ rec.section
        (sender.toNat = x.server → inPlace → ¬ isEnd →
          goes
            { sh with
              rep := sh.rep.put rec
              build := some
                { x with
                  expSeq := x.expSeq + 1, reached := rec.section, slabMark := slabMark x.slabMark
                  jobMark := jobMark x.jobMark } }) ∧
        (sender.toNat = x.server → inPlace → ∀ a b c d, rec = .fin a b c d →
          goes
            (if sh.rep.members.length = a ∧ sh.rep.ledger.entries.length = b ∧ sh.rep.slabs.length = c ∧
                sh.rep.jobs.length = d then
              { state := .current, gen := x.expGen, rep := { sh.rep with looseSlabs := [], looseJobs := [] }, build := none }
            else back)) ∧
        (sender.toNat = x.server → ¬ inPlace → goes back) ∧
        (sender.toNat ≠ x.server → seq = 0 → sender.toNat < x.server →
          (¬ isEnd → goes (first x.aside x.asideState x.asideGen)) ∧
          ∀ a b c d, rec = .fin a b c d → goes (firstEnd x.aside x.asideState x.asideGen a b c d)) ∧
        (sender.toNat ≠ x.server → 0 < seq ∨ x.server < sender.toNat → goes sh)))

/-- ASK_TIMER_EXPIRY (R30, R45, R46): a build is given up; an answered ask is made again; an unanswered one is counted, at 3
SYNC_FAILED is posted once, and a station that qualifies offers REBASE in place of the ask. The model's choices in it: a
timer that does not run changes nothing (log 3), the clock stands at the deadline (log 4), which asks count and the timer at
an abandoned build (log 9), 3.0 s to the millisecond (log 25), and no second REBASE while one is held (log 26). A SYNC_ASK
that is held stands for the ask, on the wait list too (log 49). -/
def Obligations.AskTimerExpiryAsksAgain : Prop :=
  ∀ s : State,
    let o := exec .askTimerExpiry s
    (s.dev.blk.pres.askT = none → o = .next s) ∧
    ∀ d, s.dev.blk.pres.askT = some d →
      let b : State := { s with dev.blk.now := max s.dev.blk.now d, dev.blk.pres.askT := none }
      let mayAsk : Prop := s.dev.blk.pres.mem = .outside .asking ∨ s.dev.blk.pres.mem = .outside .building ∨
        s.dev.blk.pres.mem = .joining ∨ s.dev.blk.pres.mem = .member
      let asks (x : State) : State :=
        { x with
          dev.blk.asking.answered := false
          dev.blk.line := if x.dev.blk.line.heldWaiting .table isSyncAsk then x.dev.blk.line
            else x.dev.blk.line.offer .table (mkFrame .syncAsk []) }
      let counted (n : Nat) : State := { b with dev.blk.asking.count := n }
      let told : State :=
        if s.dev.blk.asking.failed then counted 3
        else
          { counted 3 with
            dev.blk := { (counted 3).dev.blk.post (.syncFailed s.dev.shop.gen s.dev.shop.state) with asking.failed := true } }
      let qualifies : Prop :=
        (∀ t, s.dev.blk.asking.snapHeard = some t → t + 3000 < b.dev.blk.now) ∧
          ∀ x ∈ s.dev.blk.asking.askHeard, x.1 = s.dev.blk.pres.station ∨ x.2 + 3000 < b.dev.blk.now ∨
            s.dev.blk.pres.station < x.1
      (s.dev.shop.state = .current → o = .next b) ∧
      (∀ x, s.dev.shop.state = .building → s.dev.shop.build = some x → Gives o (fun t =>
        t.dev.shop = { state := x.asideState, gen := x.asideGen, rep := x.aside, build := none } ∧
          t.dev.blk.pres.askT = none ∧ t.dev.blk.asking.count = s.dev.blk.asking.count)) ∧
      (s.dev.shop.state = .empty ∨ s.dev.shop.state = .stale → mayAsk →
        (s.dev.blk.asking.answered = true → o = .next (asks b)) ∧
        (s.dev.blk.asking.answered = false → s.dev.blk.asking.count < 2 →
          o = .next (asks (counted (s.dev.blk.asking.count + 1)))) ∧
        (s.dev.blk.asking.answered = false → 2 ≤ s.dev.blk.asking.count →
          (qualifies → o = .next
            { told with
              dev.blk.line := if told.dev.blk.line.held .table isRebase then told.dev.blk.line
                else told.dev.blk.line.offer .table (mkFrame .rebase []) }) ∧
          (¬ qualifies → o = .next (asks told))))

/-- LISTEN_TIMER_EXPIRY (R52, R53), HELLO_TIMER_EXPIRY (R58) and MEMBER_SILENT (R59). The model's choices in it: the end of
the window at a CURRENT or a BUILDING replica (log 8), a timer that does not run changes nothing (log 3), a SYNC_ASK held on
the wait list stands for the ask (log 49), and the clock stands at the deadline (log 4). -/
def Obligations.PresenceTimersOfferTheirFrames : Prop :=
  ∀ s : State,
    let b := s.dev.blk
    (b.pres.listenT = none → exec .listenTimerExpiry s = .next s) ∧
    (∀ d, b.pres.listenT = some d → b.pres.mem = .outside .listen →
      s.dev.shop.state = .empty ∨ s.dev.shop.state = .stale → exec .listenTimerExpiry s = .next
        { s with
          dev.blk.now := max b.now d
          dev.blk.pres.listenT := none
          dev.blk.pres.mem := .outside .asking
          dev.blk.pres.askT := none
          dev.blk.asking.answered := false
          dev.blk.line := if b.line.heldWaiting .table isSyncAsk then b.line
            else b.line.offer .table (mkFrame .syncAsk []) }) ∧
    (∀ d, b.pres.listenT = some d →
      let ended : State := { s with dev.blk.now := max b.now d, dev.blk.pres.listenT := none }
      (b.pres.mem = .outside .listen → s.dev.shop.state = .current → exec .listenTimerExpiry s = .next
        { ended with
          dev.blk.pres.mem := .joining
          dev.blk.line := if b.line.held .presence isJoin then b.line
            else b.line.offer .presence (mkFrame .join [byte1 b.pres.role.code]) }) ∧
      (b.pres.mem = .outside .listen → s.dev.shop.state = .building → exec .listenTimerExpiry s = .next
        { ended with dev.blk.pres.mem := .outside .building }) ∧
      (b.pres.mem ≠ .outside .listen → exec .listenTimerExpiry s = .next ended)) ∧
    (b.pres.helloT = none → exec .helloTimerExpiry s = .next s) ∧
    (∀ d, b.pres.helloT = some d → exec .helloTimerExpiry s = .next
      { s with
        dev.blk.now := max b.now d
        dev.blk.pres.helloT := some (d + 1000)
        dev.blk.line := if b.pres.mem = .member ∧ b.line.held .presence isHello = false then
            b.line.offer .presence (mkFrame .hello [])
          else b.line }) ∧
    (∀ (x : BitVec 4) (t : Nat), s.isLive → x.toNat ≠ b.pres.station → memberOf x.toNat s.dev.shop.rep = true →
      b.line.held .presence (isGoneOf x.toNat) = false → Slots.get x.toNat b.pres.heard = some t →
      exec (.memberSilent x) s = .next
        { s with
          dev.blk.now := max b.now (t + 3000)
          dev.blk.line := b.line.offer .presence (mkFrame .gone [byte1 x.toNat]) }) ∧
    (∀ x : BitVec 4, ¬ s.isLive ∨ x.toNat = b.pres.station ∨ memberOf x.toNat s.dev.shop.rep = false ∨
      b.line.held .presence (isGoneOf x.toNat) = true → exec (.memberSilent x) s = .next s)

/-- The presence unit at the station's own JOIN, taken (R54, R55, R58, R59, R65): a MEMBER, its HELLO timer running, the
members never heard given this moment, the slab serial counter set, and JOINED posted. And at a GONE that names it (R60,
R62, R131, R138, R149): JOINING, GONE_SELF posted, JOIN offered, and what waits of its GONE, RELEASE, CONSUME, FLOW_ASK and
FLOW_DROP withdrawn, the RELEASE and the CONSUME kept. Where its JOIN is a leave and an entry, the leave is told first (R55):
TALLY_DONE of each job that it closes stands ahead of JOINED (R170), the job numbers distinct (`StepKeepsTheShopState`). And
the JOIN is offered before the planner withdraws (R62), so that with a full queue it takes the slot of a RELEASE, where what
waits is of class 4 or above and no HELLO stands before it (R14). The notices, the counter and that slot are stated where the
station has no water entry, so that no grant moves before them. That a grant would move first, that JOINED and GONE_SELF then
stand first among the notices of the step, but for those TALLY_DONE, and the job-slot order of these, is the model's order
(log 6); that the closer is told at its own leave and entry is log 54, and its own frame is told by log 2. -/
def Obligations.OwnJoinAndGoneMoveTheMembership : Prop :=
  ∀ (sender : BitVec 4) (g : Word16) (p : List Byte) (s : State), s.takes g sender p →
    let b := s.dev.blk
    let r := s.dev.shop.rep
    let join := exec (.join sender g p) s
    let gone := exec (.gone sender g p) s
    let dry : Prop := ∀ e ∈ r.ledger.entries, e.station ≠ b.pres.station
    let own := (r.allSlabs.filter (fun x => x.id.origin == b.pres.station)).map (fun x => x.id.serial)
    let lastOf (x : Job) : Bool :=
      x.state == .closing && x.closer == some b.pres.station && x.pending.contains b.pres.station &&
        x.pending.all (fun m => m == b.pres.station)
    let tallies := ((r.jobs.map (fun x => x.2)).filter lastOf).map (fun x => Notice.tallyDone x.number true g)
    (s.ownFrame sender .join →
      (b.pres.mem = .joining →
        Gives join (fun t => t.dev.blk.pres.mem = .member ∧ t.dev.blk.pres.helloT = some (b.now + 1000) ∧
          (∀ m ∈ t.dev.shop.rep.members,
            Slots.get m.station t.dev.blk.pres.heard = some ((Slots.get m.station b.pres.heard).getD b.now)) ∧
          (dry → memberOf b.pres.station r = false → s.posts t (.joined b.pres.station b.pres.role)) ∧
          (dry → memberOf b.pres.station r = true → (r.allJobs.map (fun j => j.number)).Nodup →
            b.host.notices.length + tallies.length < 16 →
            b.host.notices ++ tallies ++ [.joined b.pres.station b.pres.role] <+: t.dev.blk.host.notices) ∧
          (dry → (own = [] → t.dev.blk.pres.serial = 1) ∧
            ∀ h ∈ own, (∀ x ∈ own, x ≤ h) → h < 4095 → h + 1 ∉ usedSerials s.dev.shop b →
              t.dev.blk.pres.serial = h + 1))) ∧
      (b.pres.mem ≠ .joining → Gives join (fun t => t.dev.blk.pres.mem = b.pres.mem ∧
        t.dev.blk.pres.helloT = b.pres.helloT))) ∧
    (∀ a : Byte, p = [a] → within 1 15 a.toNat = true → memberOf a.toNat r = true →
      sender.toNat ≠ b.pres.station →
      (a.toNat ≠ b.pres.station → Gives gone (fun t => t.dev.blk.pres.mem = b.pres.mem ∧
        t.dev.blk.line.heldWaiting .presence (isGoneOf a.toNat) = false)) ∧
      (a.toNat = b.pres.station → b.pres.mem ≠ .member → Gives gone (fun t => t.dev.blk.pres.mem = b.pres.mem ∧
        t.dev.blk.pres.helloT = b.pres.helloT)) ∧
      (a.toNat = b.pres.station → b.pres.mem = .member →
        Gives gone (fun t => t.dev.blk.pres.mem = .joining ∧ t.dev.blk.pres.helloT = none ∧
          t.dev.blk.planner.sealT = none ∧ t.dev.blk.line.held .presence isJoin = true ∧
          t.dev.blk.line.heldWaiting .presence isGone = false ∧ t.dev.blk.line.heldWaiting .planner isRelease = false ∧
          t.dev.blk.line.heldWaiting .planner isConsume = false ∧ t.dev.blk.line.heldWaiting .saw isFlowAsk = false ∧
          t.dev.blk.line.heldWaiting .saw isFlowDrop = false ∧
          (dry → s.posts t (.goneSelf g) ∧ t.dev.blk.planner.plan = b.planner.plan.map (fun q =>
            { q with
              keptRelease := q.keptRelease || (b.line.heldWaiting .planner isRelease && q.releasing)
              keptConsume := q.keptConsume || b.line.heldWaiting .planner isConsume }) ∧
            (b.line.sound = true → (∀ w ∈ b.line.waitList ++ b.line.backlog, 4 ≤ w.frame.kind.cls) →
              b.line.waits .presence (fun f => f.kind == .hello) = false →
              b.line.queue.any (fun e => e.isOf .planner isRelease && !e.inEmission) = true →
              t.dev.blk.line.queue.any (OutEntry.isOf .presence isJoin) = true)))))

/-- REJOIN (R64, R23, R48, R67): the reply is fixed, and with no frame in emission it takes effect at once, else when
the emission ends; the line, the replica and the membership start over, and the machine keeps its work. It waits also for a
completed frame to be taken (log 10), and REJOIN_TAKES_EFFECT with nothing pending changes nothing (log 3). -/
def Obligations.RejoinStartsTheStationOver : Prop :=
  ∀ s : State,
    let b := s.dev.blk
    let startedOver (t : State) : Prop :=
      t.pending = s.pending ∧
      t.dev.shop =
        { state := .empty, gen := 0, build := none
          rep :=
            { members := [], ledger := { budget := 0, plant := none, entries := [] }, slabs := [], jobs := []
              looseSlabs := [], looseJobs := [] } } ∧
      t.dev.blk.line.queue = [] ∧ t.dev.blk.line.waitList = [] ∧ t.dev.blk.line.backlog = [] ∧
      t.dev.blk.line.rx = b.line.rx ∧ t.dev.blk.line.yielding = b.line.yielding ∧
      t.dev.blk.pres =
        { b.pres with mem := .outside .listen, listenT := some (b.now + 1500), askT := none, helloT := none } ∧
      t.dev.blk.asking.count = 0 ∧ t.dev.blk.asking.failed = false ∧ t.dev.blk.asking.stream = none ∧
      t.dev.blk.asking.snapHeard = b.asking.snapHeard ∧ t.dev.blk.asking.askHeard = b.asking.askHeard ∧
      t.dev.blk.host.rejoinPending = false ∧ t.dev.blk.host.cursor = b.host.cursor ∧
      t.dev.blk.planner.pieces = b.planner.pieces ∧ t.dev.blk.saw.enc = b.saw.enc ∧
      t.dev.blk.meas.sampleT = b.meas.sampleT ∧ t.dev.blk.meas.maHist = b.meas.maHist ∧
      t.dev.blk.plant.band = b.plant.band ∧ t.dev.blk.plant.standby = b.plant.standby ∧ t.dev.blk.now = b.now
    let replied (t : State) (st : Status) : Prop := t.dev.blk.host.exchange = .reply ∧
      t.dev.blk.host.reply = some { status := st, payload := [], notice := false }
    b.saw.planLaw = true →
    (b.host.rejoinPending = true → b.line.emitting = none → Gives (exec .rejoinTakesEffect s) startedOver) ∧
    (b.host.rejoinPending = false ∨ b.line.emitting.isSome = true → exec .rejoinTakesEffect s = .next s) ∧
    (s.asked → b.pres.mem = .mute → exec .rejoin s = .next (s.answered .wrongState [])) ∧
    (s.asked → b.pres.mem ≠ .mute → b.line.emitting = none → b.line.txDone = none →
      Gives (exec .rejoin s) (fun t => startedOver t ∧ replied t .ok)) ∧
    (s.asked → b.pres.mem ≠ .mute → b.line.emitting.isSome = true ∨ b.line.txDone.isSome = true → exec .rejoin s = .next
      ({ s with dev.blk.host.rejoinPending := true }.answered .ok []))

/-! ## The host port -/

/-- SEL_FALL (R183), SEL_RISE (R185), NOTICE_REMOVED and FETCH_NOTICE (R189), and the posting of a notice (R191). SEL_FALL
while SEL is low changes nothing (log 3); NOTICE_REMOVED stands for the last bit of any reply, and outside REPLY it changes
nothing (log 20). -/
def Obligations.ExchangeAndNoticeQueue : Prop :=
  ∀ s : State,
    let h := s.dev.blk.host
    (s.dev.blk.selLow = false → exec .selFall s = .next
      { s with dev.blk.selLow := true, dev.blk.host.exchange := .request, dev.blk.host.reply := none }) ∧
    (s.dev.blk.selLow = true → exec .selFall s = .next s) ∧
    exec .selRise s = .next
      { s with dev.blk.selLow := false, dev.blk.host.exchange := .deselected, dev.blk.host.reply := none } ∧
    (∀ r, h.exchange = .reply → h.reply = some r → r.notice = false → exec .noticeRemoved s = .next
      { s with dev.blk.host.exchange := .drain, dev.blk.host.reply := none }) ∧
    (∀ r n rest, h.exchange = .reply → h.reply = some r → r.notice = true → h.notices = n :: rest →
      exec .noticeRemoved s = .next
        { s with
          dev.blk.host.exchange := .drain
          dev.blk.host.reply := none
          dev.blk.host.notices := rest
          dev.blk.host.attn := decide (rest ≠ [])
          dev.blk.host.lost := if rest = [] then 0 else h.lost }) ∧
    (h.exchange ≠ .reply → exec .noticeRemoved s = .next s) ∧
    (s.asked → h.notices = [] → exec .fetchNotice s = .next
      (s.answered .ok [0, 0, 0, 0, 0, 0, 0, 0, byte1 h.lost])) ∧
    (∀ n rest, s.asked → h.notices = n :: rest → exec .fetchNotice s = .next
      { s with
        dev.blk.host.exchange := .reply
        dev.blk.host.reply := some
          { status := .ok, notice := true
            payload := [byte1 n.code] ++ n.detail ++ List.replicate (6 - n.detail.length) 0 ++
              [byte1 rest.length, byte1 h.lost] } }) ∧
    (∀ n, s.dev.blk.pres.mem ≠ .inert → h.notices.length < 16 →
      s.dev.blk.post n = { s.dev.blk with host.notices := h.notices ++ [n], host.attn := true }) ∧
    (∀ n, s.dev.blk.pres.mem ≠ .inert → h.notices.length = 16 →
      s.dev.blk.post n = { s.dev.blk with host.lost := if h.lost < 255 then h.lost + 1 else 255 })

/-- STATUS (R187), BAD_REQUEST and INERT (R184, R186, R50), WRONG_ROLE (R186), and requests outside REQUEST (R183). The
fault reason of STATUS is the sequencer's (log 47), and its generation while BUILDING the one set aside (log 7). -/
def Obligations.StatusAndRefusedRequests : Prop :=
  ∀ s : State,
    let b := s.dev.blk
    let cutter (x : Byte) : Byte := if b.pres.role = .cutter then x else 0
    let plant (x : Byte) : Byte := if b.pres.role = .plant then x else 0
    (b.host.exchange = .request → exec .status s = .next
      (s.answered .ok
        [byte1 b.pres.station, byte1 b.pres.role.code, byte1 b.pres.rate,
          byte1 ((if b.pres.mem = .inert then 1 else 0) +
            (if b.pres.mem = .member ∧ s.dev.shop.state = .current then 2 else 0) +
            (if b.host.rejoinPending = true then 4 else 0)),
          byte1 b.pres.mem.code, byte1 b.pres.mem.phaseCode, byte1 s.dev.shop.state.code,
          byte1 (s.dev.shop.gen.toNat / 256), byte1 s.dev.shop.gen.toNat,
          byte1 b.line.queue.length, byte1 b.host.notices.length, byte1 b.host.lost,
          byte1 (b.meas.missed / 256), byte1 b.meas.missed,
          cutter (byte1 (match b.planner.plan with | none => 0 | some p => p.state.code)),
          cutter (byte1 b.saw.st.code), cutter (byte1 (faultCode b.saw.fault)),
          plant (flag b.plant.standby), plant (byte1 (bandCode b.plant.band))])) ∧
    (∀ code length : Byte, requestLength code.toNat ≠ some length.toNat → b.host.exchange = .request →
      b.pres.mem ≠ .inert ∨ code = 1 → exec (.badRequest code length) s = .next (s.answered .badRequest [])) ∧
    (∀ code length : Byte, requestLength code.toNat ≠ some length.toNat → b.host.exchange = .request →
      b.pres.mem = .inert → code ≠ 1 → exec (.badRequest code length) s = .next (s.answered .inert [])) ∧
    (∀ c, isHostRequest c = true → c ≠ .status → (∀ code length, c ≠ .badRequest code length) →
      b.host.exchange = .request → b.pres.mem = .inert → exec c s = .next (s.answered .inert [])) ∧
    (∀ c, isCutterRequest c = true → s.asked → b.pres.role = .plant →
      exec c s = .next (s.answered .wrongRole [])) ∧
    (∀ c, isHostRequest c = true → b.host.exchange ≠ .request → exec c s = .next s)

/-- REGISTER_SLAB, SCRAP_SLAB and FREE_ORPHAN (R87, R66): the checks in their order, then QUEUED with the frame. OPEN_JOB,
CLOSE_JOB and READ_JOB (R171); an unsettled record reads slot 255 (log 32). -/
def Obligations.StockAndJobRequestsQueueTheirFrames : Prop :=
  (∀ s : State, s.asked →
        let b := s.dev.blk
        let full : Prop := 12 ≤ b.line.queue.length
        (∀ (m t : Byte) (l w : Word16) (rack : Byte) (rate : Word16),
          let o := exec (.registerSlab m t l w rack rate) s
          let inRange := within 1 250 m.toNat && within 12 60 t.toNat && within 100 4000 l.toNat && within 100 2200 w.toNat
          let frame := mkFrame .slabAdd
            (slabAddPayload b.pres.serial m.toNat t.toNat l.toNat w.toNat rack.toNat rate.toNat)
          let id := bytes2 (SlabId.code { origin := b.pres.station, serial := b.pres.serial })
          let after := if b.pres.serial < 4095 then b.pres.serial + 1 else 1
          (inRange = false → o = .next (s.answered .badField [])) ∧
          (inRange = true → ¬ s.isLive → o = .next (s.answered .notLive [])) ∧
          (inRange = true → s.isLive → full → o = .next (s.answered .full [])) ∧
          (inRange = true → s.isLive → ¬ full →
            (∃ n, o = .next ({ s with dev.blk.pres.serial := n }.queued frame id)) ∧
            (after ∉ usedSerials s.dev.shop b → o = .next ({ s with dev.blk.pres.serial := after }.queued frame id)))) ∧
        (∀ (c : Instr) (id : Word16) (k : Kind) (needs : SlabState),
          (c = .scrapSlab id ∧ k = .scrap ∧ needs = .free) ∨ (c = .freeOrphan id ∧ k = .freeOrphan ∧ needs = .orphaned) →
          (SlabId.ofCode id.toNat = none → exec c s = .next (s.answered .badField [])) ∧
          (∀ i, SlabId.ofCode id.toNat = some i →
            (¬ s.isLive → exec c s = .next (s.answered .notLive [])) ∧
            (s.isLive → s.dev.shop.rep.slab? i = none → exec c s = .next (s.answered .notFound [])) ∧
            (∀ x, s.isLive → s.dev.shop.rep.slab? i = some x →
              (x.state ≠ needs → exec c s = .next (s.answered .wrongState [])) ∧
              (x.state = needs → full → exec c s = .next (s.answered .full [])) ∧
              (x.state = needs → ¬ full → exec c s = .next (s.queued (mkFrame k (bytes2 i.code)) [])))))) ∧
  ∀ (s : State) (n : Word16), s.asked →
    let full : Prop := 12 ≤ s.dev.blk.line.queue.length
    let r := s.dev.shop.rep
    (n = 0 → ∀ c ∈ [Instr.openJob n, .closeJob n, .readJob n], exec c s = .next (s.answered .badField [])) ∧
    (n ≠ 0 →
      (¬ s.isLive → exec (.openJob n) s = .next (s.answered .notLive []) ∧
        exec (.closeJob n) s = .next (s.answered .notLive [])) ∧
      (s.isLive →
        (∀ x, r.job? n.toNat = some x → x.state ≠ .closed → exec (.openJob n) s = .next (s.answered .wrongState [])) ∧
        ((∀ x, r.job? n.toNat = some x → x.state = .closed) →
          (full → exec (.openJob n) s = .next (s.answered .full [])) ∧
          (¬ full → exec (.openJob n) s = .next (s.queued (mkFrame .jobOpen (bytes2 n.toNat)) []))) ∧
        (r.job? n.toNat = none → exec (.closeJob n) s = .next (s.answered .notFound [])) ∧
        (∀ x, r.job? n.toNat = some x →
          (x.state ≠ .opened → exec (.closeJob n) s = .next (s.answered .wrongState [])) ∧
          (x.state = .opened → full → exec (.closeJob n) s = .next (s.answered .full [])) ∧
          (x.state = .opened → ¬ full →
            exec (.closeJob n) s = .next (s.queued (mkFrame .jobClose (bytes2 n.toNat)) []))))  ∧
      (r.job? n.toNat = none → exec (.readJob n) s = .next (s.answered .notFound [])) ∧
      (∀ slot x, r.findJob n.toNat = some (some slot, x) →
        exec (.readJob n) s = .next (s.answered .ok (byte1 slot :: x.body))) ∧
      (∀ x, r.findJob n.toNat = some (none, x) → exec (.readJob n) s = .next (s.answered .ok (255 :: x.body))))

/-- READ_SLAB (R188), READ_COST_LINE and CLEAR_COST_LINE (R181), READ_LEDGER and READ_SAMPLES (R190): the checks, the
replies, and nothing else changed, but for the line cleared and the search that its freeing starts (R173). READ_LEDGER
of a BUILDING replica reads the partial one, with the expected generation (log 7), and the effective grant it shows is
that of an own entry before the station is LIVE too (log 56). A correction above 65535, which no rule lays out in its
two bytes, reads a free value, whatever it is, and one is counted (log 36). -/
def Obligations.ReadRequestsReplyFromTheState : Prop :=
  ∀ s : State, s.asked →
    let b := s.dev.blk
    let l := s.dev.shop.rep.ledger
    let gen : Word16 := match s.dev.shop.build with | some x => x.expGen | none => s.dev.shop.gen
    let m := b.meas
    (∀ id : Word16,
      (SlabId.ofCode id.toNat = none → exec (.readSlab id) s = .next (s.answered .badField [])) ∧
      (∀ i, SlabId.ofCode id.toNat = some i →
        (s.dev.shop.rep.findSlab i = none → exec (.readSlab id) s = .next (s.answered .notFound [])) ∧
        (∀ slot x, s.dev.shop.rep.findSlab i = some (some slot, x) →
          exec (.readSlab id) s = .next (s.answered .ok (byte1 slot :: x.body))) ∧
        (∀ x, s.dev.shop.rep.findSlab i = some (none, x) →
          exec (.readSlab id) s = .next (s.answered .ok (255 :: x.body))))) ∧
    (∀ slot : Byte,
      (23 < slot.toNat → exec (.readCostLine slot) s = .next (s.answered .badField []) ∧
        exec (.clearCostLine slot) s = .next (s.answered .badField [])) ∧
      (slot.toNat ≤ 23 → Slots.get slot.toNat b.cost.lines = none →
        exec (.readCostLine slot) s = .next (s.answered .notFound []) ∧
          exec (.clearCostLine slot) s = .next (s.answered .notFound [])) ∧
      (∀ x, slot.toNat ≤ 23 → Slots.get slot.toNat b.cost.lines = some x →
        exec (.readCostLine slot) s = .next (s.answered .ok (bytes2 x.job ++ x.tally.bytes ++
          [byte1 x.openCount, byte1 x.state.code, flag (b.cost.first.any (fun f => f.2 == slot.toNat))])) ∧
        (x.state ≠ .refused → exec (.clearCostLine slot) s = .next (s.answered .wrongState [])) ∧
        (x.state = .refused → b.planner.plan ≠ none ∨ ¬ s.isLive → exec (.clearCostLine slot) s = .next
          { s.answered .ok [] with dev.blk.cost.lines := b.cost.lines.filter (fun y => y.1 != slot.toNat) }) ∧
        (x.state = .refused → Gives (exec (.clearCostLine slot) s) (fun t =>
          t.dev.shop = s.dev.shop ∧ t.dev.blk.saw = b.saw ∧ t.dev.blk.pres = b.pres ∧ t.dev.blk.meas = m ∧
            t.dev.blk.host.reply = some { status := .ok, payload := [], notice := false })))) ∧
    (∀ start : Byte,
      (14 < start.toNat → exec (.readLedger start) s = .next (s.answered .badField [])) ∧
      (start.toNat ≤ 14 → exec (.readLedger start) s = .next
        (s.answered .ok (bytes2 gen.toNat ++ bytes2 l.budget ++
          [byte1 (match l.plant with | none => 0 | some p => p), byte1 l.entries.length] ++
          bytes2 (effGrant s.dev.shop b) ++
          ((l.entries.drop start.toNat).take 6).flatMap
            (fun e => [byte1 e.station] ++ bytes2 e.asked ++ bytes2 e.granted))))) ∧
    (let front (fa fb : Nat) (valid : Byte) := bytes2 m.ma ++ bytes2 fa ++ bytes2 m.mb ++ bytes2 fb ++ [valid] ++
        bytes2 m.missed
      let back (correction : List Byte) : List Byte :=
        if b.pres.role = .cutter then
          [byte1 ((if m.derate = true then 1 else 0) + (if m.jam = true then 2 else 0) + (if m.dry = true then 4 else 0))]
        else
          bytes2 m.window ++ [byte1 (bandCode b.plant.band),
            byte1 ((if b.plant.turbid = true then 1 else 0) + (if b.plant.correction ≠ none then 2 else 0) +
              (if b.plant.published ≠ none then 4 else 0))] ++
            correction ++ bytes2 (b.plant.published.getD 0) ++ bytes2 b.plant.lastSent
      let sent (ahead : List Byte) : Prop :=
        (b.plant.correction.getD 0 ≤ 65535 ∨ b.pres.role = .cutter → exec .readSamples s = .next
          (s.answered .ok (ahead ++ back (bytes2 (b.plant.correction.getD 0))))) ∧
        (65535 < b.plant.correction.getD 0 → b.pres.role = .plant → ∃ v : Word16, exec .readSamples s = .next
          { s.answered .ok (ahead ++ back (bytes2 v.toNat)) with dev.blk.draws := b.draws + 1 })
      (∀ fa fb, filtered m.maHist = some fa → filtered m.mbHist = some fb → sent (front fa fb 1)) ∧
      (filtered m.maHist = none ∨ filtered m.mbHist = none → sent (front 0 0 0)))

/-- SET_CURSOR and WALK_SLABS (R188): the walk goes through the occupied slots in order and leaves the cursor behind;
READ_PLAN (R123, R200) returns one part of the plan and moves the part index on. Its fault byte shows the reason that the
plan keeps, also while RECLAIMING: the model's choice (log 39). -/
def Obligations.WalkAndPlanPartsMoveOn : Prop :=
  ∀ s : State, s.asked →
    let b := s.dev.blk
    let slabs := s.dev.shop.rep.slabs
    (∀ slot : Byte,
      (159 < slot.toNat → exec (.setCursor slot) s = .next (s.answered .badField [])) ∧
      (slot.toNat ≤ 159 → exec (.setCursor slot) s = .next { s.answered .ok [] with dev.blk.host.cursor := slot.toNat })) ∧
    (Slots.wf slabs = true →
      (∀ n x, b.host.cursor ≤ n → Slots.get n slabs = some x →
        (∀ k, b.host.cursor ≤ k → k < n → Slots.get k slabs = none) → exec .walkSlabs s = .next
        { s.answered .ok (byte1 n :: x.body) with dev.blk.host.cursor := n + 1 }) ∧
      ((∀ k, b.host.cursor ≤ k → Slots.get k slabs = none) → exec .walkSlabs s = .next
        { s.answered .notFound [] with dev.blk.host.cursor := 160 })) ∧
    (b.pres.role = .cutter →
      let n := b.host.planPart
      let length : Nat := if n = 0 then 21 else if n = 3 then 34 else if n = 4 then 26 else 38
      let next : Nat := if n < 6 then n + 1 else 0
      let sent (content : List Byte) : State :=
        { s.answered .ok (content ++ List.replicate (length - content.length) 0) with dev.blk.host.planPart := next }
      (b.planner.plan = none → exec .readPlan s = .next (sent [byte1 n])) ∧
      (∀ p, b.planner.plan = some p →
        (n = 0 → exec .readPlan s = .next (sent
          ([0, byte1 p.state.code, byte1 (if p.state = .reclaiming then p.back.code else 0), byte1 (faultCode p.fault),
            byte1 ((if p.started = true then 1 else 0) + (if p.releasing = true then 2 else 0))] ++ bytes2 p.slab.code ++
            bytes2 p.length ++ bytes2 p.width ++ [byte1 p.material, byte1 p.thickness, byte1 p.placements.length,
              byte1 p.offcuts.length, byte1 p.cuts.length, byte1 b.saw.cur] ++ bytes2 b.saw.enc ++ bytes2 b.saw.cmd))) ∧
        (n = 1 ∨ n = 2 → exec .readPlan s = .next (sent
          ([byte1 n, byte1 p.state.code] ++ ((p.placements.drop (3 * (n - 1))).take 3).flatMap (fun x =>
            [byte1 x.piece.id] ++ bytes2 x.piece.job ++ bytes2 x.x ++ bytes2 x.y ++ bytes2 x.length ++ bytes2 x.width ++
              [byte1 ((if x.rotated = true then 1 else 0) + (if x.done = true then 2 else 0))])))) ∧
        (n = 3 ∨ n = 4 → exec .readPlan s = .next (sent
          ([byte1 n, byte1 p.state.code] ++ ((p.offcuts.drop (4 * (n - 3))).take (7 - n)).flatMap (fun x =>
            bytes2 x.x ++ bytes2 x.y ++ bytes2 x.length ++ bytes2 x.width)))) ∧
        (n = 5 ∨ n = 6 → exec .readPlan s = .next (sent
          ([byte1 n, byte1 p.state.code] ++ ((p.cuts.drop (6 * (n - 5))).take 6).flatMap (fun x =>
            [byte1 ((if x.kind = .rip then 1 else 0) + (if x.done = true then 2 else 0))] ++ bytes2 x.length ++
              [byte1 x.placement] ++ bytes2 x.job))))))

/-! ## The planner -/

/-- SUBMIT_PIECE (R120, R119) with the search it starts over the whole queue (R125, R126) or the look it starts in PLANNING
(R131), and CANCEL_PIECE (R121). A plan whose RELEASE is on its way takes no look: the model's choice (log 16). PIECE_PLACED
stands first among the notices of its step, and the plan's sealing after it (log 6). -/
def Obligations.PieceRequestsAndTheSearch : Prop :=
  ∀ s : State, s.asked → s.dev.blk.pres.role = .cutter →
    let b := s.dev.blk
    let r := s.dev.shop.rep
    let placements : List Placement := match b.planner.plan with | none => [] | some q => q.placements
    (∀ (piece : Byte) (job : Word16) (m t : Byte) (l w : Word16) (rotate : Byte),
      let o := exec (.submitPiece piece job m t l w rotate) s
      let inRange := within 1 255 piece.toNat && within 1 65535 job.toNat && within 1 250 m.toNat &&
        within 12 60 t.toNat && within 100 3990 l.toNat && within 100 2190 w.toNat && rotate.toNat ≤ 1
      let taken : Prop := (∃ x ∈ b.planner.pieces, x.id = piece.toNat) ∨ ∃ x ∈ placements, x.piece.id = piece.toNat
      let jobOpen : Prop := ∃ x, r.job? job.toNat = some x ∧ x.state = .opened
      let full : Prop := 32 ≤ b.planner.pieces.length + placements.length
      let new : Piece :=
        { id := piece.toNat, job := job.toNat, material := m.toNat, thickness := t.toNat, length := l.toNat
          width := w.toNat, rotate := rotate = 1, state := .queued, sub := b.planner.nextSub }
      let eligible (y : Piece) : Bool := (r.job? y.job).any (fun x => x.state == .opened)
      let queue := b.planner.pieces ++ [new]
      let joins (p : Piece) : Blocks :=
        { b with planner.pieces := b.planner.pieces ++ [p], planner.nextSub := b.planner.nextSub + 1 }
      (inRange = false ∨ taken → o = .next (s.answered .badField [])) ∧
      (inRange = true → ¬ taken → ¬ jobOpen → o = .next (s.answered .notFound [])) ∧
      (inRange = true → ¬ taken → jobOpen → full → o = .next (s.answered .full [])) ∧
      (inRange = true → ¬ taken → jobOpen → ¬ full →
        ((¬ s.isLive ∨ (∃ q, b.planner.plan = some q ∧ (q.state ≠ .planning ∨ q.releasing = true)) ∨
            (b.planner.plan = none ∧ ∃ x ∈ r.allSlabs, x.holder = some b.pres.station)) →
          o = .next ({ s with dev.blk := joins new }.answered .ok [])) ∧
        (s.isLive → b.planner.plan = none → (∀ x ∈ r.allSlabs, x.holder ≠ some b.pres.station) →
          let fits (y : Piece) (x : Slab) : Prop := x.state = .free ∧ x.material = y.material ∧
            x.thickness = y.thickness ∧ ((y.length ≤ x.length ∧ y.width ≤ x.width) ∨
              (y.rotate = true ∧ y.width ≤ x.length ∧ y.length ≤ x.width))
          let wins (y : Piece) : Prop := eligible y = true ∧ b.cost.canReserve y.job = true ∧ ∃ x ∈ r.allSlabs, fits y x
          let area (x : Slab) : Nat := x.length * x.width
          let better (x y : Slab) : Prop := area x < area y ∨ (area x = area y ∧
            ((x.kind = .remnant ∧ y.kind = .sheet) ∨ (x.kind = y.kind ∧ x.id.code < y.id.code)))
          let passed (y : Piece) : Piece :=
            if eligible y then { y with state := if b.cost.canReserve y.job then .waitStock else .waitLine } else y
          let told (l : List Piece) : List Notice :=
            (l.filter (fun y => eligible y && b.cost.canReserve y.job && y.state != .waitStock)).map
              (fun y => .pieceWaiting y.id y.job)
          ((∀ y ∈ queue, ¬ wins y) → o = .next ({ s with
            dev.blk := Blocks.postAll (told queue) { joins new with planner.pieces := queue.map passed } }.answered .ok [])) ∧
          (∀ before y after x, queue = before ++ y :: after → (∀ z ∈ before, ¬ wins z) → wins y →
            x ∈ r.allSlabs → fits y x → (∀ z ∈ r.allSlabs, fits y z → z = x ∨ better x z) →
            o = .next ({ s with
              dev.blk := Blocks.postAll (told before)
                { joins new with
                  planner.pieces := before.map passed ++ { y with state := .queued } :: after
                  planner.plan := some
                    { slab := x.id, length := x.length, width := x.width, material := x.material
                      thickness := x.thickness, state := .claiming, back := .claiming, fault := none, releasing := false
                      placements := [], offcuts := [], cuts := [], started := false, piece := some y.id
                      job := y.job, keptRelease := false, keptConsume := false, abandoned := false }
                  cost := b.cost.reserve y.job
                  line := b.line.offer .planner (mkFrame .claim (bytes2 x.id.code)) } }.answered .ok []))) ∧
        (∀ q, s.isLive → b.planner.plan = some q → q.state = .planning → q.releasing = false →
          let candidate (y : Piece) : Prop := eligible y = true ∧ y.material = q.material ∧ y.thickness = q.thickness
          let placeable (y : Piece) : Prop := (bestOffcut y q.offcuts 0 none).isSome = true ∧
            b.cost.canReserve y.job = true
          let room : Prop := q.placements.length < 6 ∧ q.offcuts ≠ []
          let sealed (q' : Plan) (t : State) : Prop := t.dev.blk.planner.sealT = none ∧
            t.dev.blk.saw.st = .loadWait ∧ t.dev.blk.planner.plan = some { q' with state := .loadWait, fault := none }
          let waits (q' : Plan) (sealT : Nat) (t : State) : Prop := t.dev.blk.saw = b.saw ∧
            t.dev.blk.planner.plan = some q' ∧ t.dev.blk.planner.sealT = some sealT
          (¬ room → Gives o (fun t => sealed q t ∧ t.dev.blk.planner.pieces = queue)) ∧
          (room → (∀ y ∈ queue, ¬ candidate y) → Gives o (fun t => t.dev.blk.planner.pieces = queue ∧
            waits q (b.planner.sealT.getD (b.now + 2000)) t)) ∧
          (room → (∃ y ∈ queue, candidate y) → (∀ y ∈ queue, candidate y → ¬ placeable y) →
            Gives o (fun t => sealed q t ∧ t.dev.blk.planner.pieces = queue)) ∧
          (∀ before y after i x, room → queue = before ++ y :: after →
            (∀ z ∈ before, candidate z → ¬ placeable z) → candidate y → b.cost.canReserve y.job = true →
            bestOffcut y q.offcuts 0 none = some (i, x) →
            let q' := q.place y i x
            let placed (t : State) : Prop := s.posts t (.piecePlaced y.id q.slab (q.placements.length + 1)
              (decide (¬ (y.length ≤ x.length ∧ y.width ≤ x.width))))
            Gives o (fun t => placed t ∧ (∀ z ∈ t.dev.blk.planner.pieces, z.id ≠ y.id) ∧
              ∃ p, t.dev.blk.planner.plan = some p ∧ q'.placements <+: p.placements) ∧
            (b.planner.pieces = [] →
              (6 ≤ q'.placements.length ∨ q'.offcuts = [] → Gives o (fun t => placed t ∧ sealed q' t)) ∧
              (q'.placements.length < 6 → q'.offcuts ≠ [] →
                Gives o (fun t => placed t ∧ waits q' (b.now + 2000) t))))))) ∧
    (∀ piece : Byte,
      let o := exec (.cancelPiece piece) s
      let queued : Prop := ∃ x ∈ b.planner.pieces, x.id = piece.toNat
      let placed : Prop := ∃ x ∈ placements, x.piece.id = piece.toNat
      let claimedFor : Prop := ∃ q, b.planner.plan = some q ∧ q.state = .claiming ∧ q.piece = some piece.toNat
      (¬ queued → ¬ placed → o = .next (s.answered .notFound [])) ∧
      (placed ∨ (queued ∧ claimedFor) → o = .next (s.answered .wrongState [])) ∧
      (queued → ¬ placed → ¬ claimedFor → o = .next
        { s.answered .ok [] with dev.blk.planner.pieces := b.planner.pieces.filter (fun x => x.id != piece.toNat) }))

/-- Placing a piece (R129, R130, R133): into the smallest offcut it fits, the earliest among equals, as given where it fits
so; the cuts, the two offcuts and the placement that it leaves, its done mark as R133 has it. -/
def Obligations.PlacementSplitsTheOffcut : Prop :=
  ∀ (p : Piece) (q : Plan),
    let asGiven (x : Offcut) : Prop := p.length ≤ x.length ∧ p.width ≤ x.width
    let turned (x : Offcut) : Prop := p.rotate = true ∧ p.width ≤ x.length ∧ p.length ≤ x.width
    let area (x : Offcut) : Nat := x.length * x.width
    (bestOffcut p q.offcuts 0 none = none ↔ ∀ x ∈ q.offcuts, ¬ asGiven x ∧ ¬ turned x) ∧
    (∀ (i : Nat) (x : Offcut), bestOffcut p q.offcuts 0 none = some (i, x) →
      q.offcuts[i]? = some x ∧ (asGiven x ∨ turned x) ∧
      (∀ (j : Nat) (y : Offcut), q.offcuts[j]? = some y → asGiven y ∨ turned y →
        area x < area y ∨ (area x = area y ∧ i ≤ j)) ∧
      ∀ (l w : Nat) (rotated : Bool),
        (asGiven x ∧ l = p.length ∧ w = p.width ∧ rotated = false) ∨
          (¬ asGiven x ∧ l = p.width ∧ w = p.length ∧ rotated = true) →
        let cut (kind : CutKind) (length : Nat) : Cut :=
          { kind := kind, length := length, placement := q.placements.length + 1, job := p.job, done := false }
        let cuts : List Cut :=
          q.cuts ++ (if l < x.length then [cut .cross x.width] else []) ++ (if w < x.width then [cut .rip l] else [])
        let endOffcut : List Offcut :=
          if l + 4 + 100 ≤ x.length ∧ 100 ≤ x.width then
            [{ x := x.x + l + 4, y := x.y, length := x.length - l - 4, width := x.width }] else []
        let sideOffcut : List Offcut :=
          if 100 ≤ l ∧ w + 4 + 100 ≤ x.width then
            [{ x := x.x, y := x.y + w + 4, length := l, width := x.width - w - 4 }] else []
        q.place p i x =
          { q with
            cuts := cuts
            offcuts := q.offcuts.eraseIdx i ++ endOffcut ++ sideOffcut
            placements := q.placements ++
              [{ piece := p, x := x.x, y := x.y, length := l, width := w, rotated := rotated
                 done := cuts.all (fun c => c.done) }] })

/-- SEAL_PLAN and SEALING_TIMER_EXPIRY (R131, R132, R141, R145): the plan is sealed and handed to the sequencer, which
fixes need and base feed by its thickness and waits for GO. The model's choices in it: a plan whose RELEASE is on its way is
not sealed (log 16), a timer that does not run changes nothing (log 3), and the clock stands at the deadline (log 4). -/
def Obligations.SealingHandsThePlanOver : Prop :=
  ∀ s : State,
    let b := s.dev.blk
    let sealedWith (p : Plan) (x : Blocks) : Blocks := Blocks.post (.planSealed p.slab p.placements.length p.cuts.length)
      { x with
        planner.sealT := none
        planner.plan := some { p with state := .loadWait, fault := none }
        saw :=
          { b.saw with
            st := .loadWait
            plan := some
              { thickness := p.thickness, cuts := p.cuts
                need := if p.thickness ≤ 20 then 400 else if p.thickness ≤ 30 then 500 else 650
                baseFeed := if p.thickness ≤ 20 then 1500 else if p.thickness ≤ 30 then 1000 else 600 }
            cur := if p.cuts = [] then 0 else 1
            entered := false, resumeCut := 0, resumeEntered := false, started := false, fault := none } }
    (s.asked → b.pres.role = .cutter →
      (∀ p, b.planner.plan = some p → p.state = .planning → p.releasing = false →
        exec .sealPlan s = .next ({ s with dev.blk := sealedWith p b }.answered .ok [])) ∧
      ((∀ p, b.planner.plan = some p → p.state ≠ .planning ∨ p.releasing = true) →
        exec .sealPlan s = .next (s.answered .wrongState []))) ∧
    (b.planner.sealT = none → exec .sealingTimerExpiry s = .next s) ∧
    (∀ d, b.planner.sealT = some d →
      (∀ p, b.planner.plan = some p → p.state = .planning → p.releasing = false →
        exec .sealingTimerExpiry s = .next { s with dev.blk := sealedWith p { b with now := max b.now d } }) ∧
      ((∀ p, b.planner.plan = some p → p.state ≠ .planning ∨ p.releasing = true) →
        exec .sealingTimerExpiry s = .next
          { s with dev.blk.now := max b.now d, dev.blk.planner.sealT := none }))

/-- ABANDON_PLAN (R136, R137): the checks in their order; a plan not started returns its pieces and offers RELEASE, a
started one keeps its cut pieces and offers CONSUME with no remnant, and one that has lost its slab ends at once; at a LIVE
station the search that follows may mark the pieces and claim a slab for a new plan. Where no report is DUE, nothing else
joins the queue. The model's choices in it: the plan's cuts and offcuts stand (log 17), and pieces of a job that the replica does not hold are removed with
the others (log 18). -/
def Obligations.AbandonEndsThePlan : Prop :=
  ∀ s : State, s.asked → s.dev.blk.pres.role = .cutter →
    let b := s.dev.blk
    let o := exec .abandonPlan s
    let replied (t : State) (st : Status) : Prop := t.dev.blk.host.exchange = .reply ∧
      t.dev.blk.host.reply = some { status := st, payload := [], notice := false }
    let kept (t : State) : Prop := t.dev.shop = s.dev.shop ∧ t.pending = s.pending ∧ t.dev.blk.pres = b.pres ∧
      t.dev.blk.meas = b.meas ∧ t.dev.blk.plant = b.plant ∧ t.dev.blk.saw.enc = b.saw.enc ∧
      t.dev.blk.saw.cmd = b.saw.cmd ∧ t.dev.blk.saw.waterWanted = b.saw.waterWanted ∧
      (b.saw.st = .loadWait ∨ b.saw.st = .faulted → t.dev.blk.saw.st = .idle ∧ t.dev.blk.saw.plan = none ∧
        t.dev.blk.saw.dropT = if b.saw.dropT.isNone && b.saw.waterWanted then some (b.now + 5000) else b.saw.dropT)
    let returned (seen : Piece → Piece) (out : List Placement) (t : State) : Prop :=
      ∃ front, t.dev.blk.planner.pieces.map seen = (front ++ b.planner.pieces).map seen ∧
        front.Perm ((out.filter (fun x => jobOpenIn x.piece.job s.dev.shop.rep)).map
          (fun x => { x.piece with state := .queued })) ∧
        front.Pairwise (fun x y => x.sub ≤ y.sub)
    (b.planner.plan = none → o = .next (s.answered .wrongState [])) ∧
    ∀ p, b.planner.plan = some p →
      ((p.state ≠ .loadWait ∧ p.state ≠ .faulted) ∨ p.releasing = true → o = .next (s.answered .wrongState [])) ∧
      (p.state = .loadWait ∨ p.state = .faulted → p.releasing = false →
        let lost : Prop := p.state = .faulted ∧ p.fault = some .slabLost
        (lost → Gives o (fun t => replied t .ok ∧ kept t ∧
          (¬ s.isLive → t.dev.blk.planner.plan = none ∧ returned id (p.placements.filter (fun x => !x.done)) t) ∧
          (s.isLive → (∀ q, t.dev.blk.planner.plan = some q → q.state = .claiming ∧ q.placements = []) ∧
            returned (fun y => { y with state := .queued }) (p.placements.filter (fun x => !x.done)) t))) ∧
        (¬ lost → ¬ s.isLive → o = .next (s.answered .notLive [])) ∧
        (¬ lost → s.isLive → 12 ≤ b.line.queue.length → o = .next (s.answered .full [])) ∧
        (¬ lost → s.isLive → b.line.queue.length < 12 →
          let offers (f : Frame) (t : State) : Prop := t.holds .planner f ∧
            ((∀ x ∈ b.cost.lines, x.2.state ≠ .due) → t.dev.blk.line = b.line.offer .planner f)
          (p.started = false → Gives o (fun t => replied t .queued ∧ kept t ∧ returned id p.placements t ∧
            t.dev.blk.planner.plan = some { p with placements := [], releasing := true, keptRelease := false } ∧
            offers (mkFrame .release (bytes2 p.slab.code)) t)) ∧
          (p.started = true →
            let cutPieces := p.placements.filter (fun x => x.done)
            Gives o (fun t => replied t .queued ∧ kept t ∧ returned id (p.placements.filter (fun x => !x.done)) t ∧
              t.dev.blk.planner.plan = some
                { p with
                  placements := cutPieces, state := .consuming, abandoned := true, fault := none, keptConsume := false } ∧
              offers (mkFrame .consume (consumePayload p.slab true
                ((cutPieces.map (fun x => x.length * x.width)).sum) [])) t))))

/-- The outcomes of the planner's own frames, each taken off the line after its sending (R127, R128, R135, R136, R139): of
CLAIM, RELEASE, CONSUME and RECLAIM, taken or void. A void RELEASE, CONSUME or RECLAIM is set aside while the record is
ORPHANED with this station its holder; of a CONSUME that follows R135 against R83 and R85 (log 38). Where a plan ends, it is
stated with no piece in the queue, so that no search follows it. A notice is stated as the first of its step: the model's
order (log 6). The station's own frame is told by log 2, and the current cut that SLAB_LOST shows after the return to IDLE
is log 40. -/
def Obligations.PlannerTakesItsOutcomes : Prop :=
  ∀ (k : Kind) (sender : BitVec 4) (g : Word16) (p : List Byte) (i : SlabId) (s : State) (q : Plan),
    s.takes g sender p → s.ownFrame sender k → s.dev.blk.pres.role = .cutter → s.dev.blk.pres.mem = .member →
    s.dev.blk.planner.plan = some q → q.slab = i →
    let b := s.dev.blk
    let r := s.dev.shop.rep
    let o := exec (k.command sender 0 g p) s
    let taken : Prop := (judgeFrame (Ctx.whole g) sender.toNat k p r).void = none
    let here (st : SlabState) : Prop := ∃ x, r.slab? i = some x ∧ x.state = st ∧ x.holder = some b.pres.station
    let plan (q' : Option Plan) (t : State) : Prop := t.dev.blk.planner.plan = q'
    let ends (t : State) : Prop := plan none t ∧ t.dev.blk.planner.sealT = none ∧ t.dev.blk.cost.first = none
    let releases (q' : Plan) (t : State) : Prop :=
      plan (some { q' with releasing := true, keptRelease := false }) t ∧
        t.holds .planner (mkFrame .release (bytes2 i.code))
    let lost (t : State) : Prop :=
      s.posts t (.planFault .slabLost (if b.saw.st = .faulted then b.saw.resumeCut else b.saw.cur) b.saw.enc) ∧
        (b.saw.st ≠ .idle → t.dev.blk.saw.st = .faulted ∧ t.dev.blk.saw.fault = some .slabLost)
    let faulted (t : State) : Prop := lost t ∧
      plan (some { q with state := .faulted, fault := some .slabLost, keptConsume := false }) t
    let slab : Offcut := { x := 0, y := 0, length := q.length, width := q.width }
    let planning : Plan := { q with state := .planning, offcuts := [slab] }
    let empty : Prop := b.planner.pieces = []
    (k = .claim → parseChange k p = some (.claim i) → q.state = .claiming →
      (∀ y j x, taken → q.releasing = false → q.placements = [] → q.cuts = [] →
        b.planner.pieces.find? (fun a => q.piece == some a.id) = some y →
        bestOffcut y [slab] 0 none = some (j, x) →
        Gives o (fun t =>
          s.posts t (.piecePlaced y.id i 1 (decide (¬ (y.length ≤ q.length ∧ y.width ≤ q.width)))) ∧
          (∀ a ∈ t.dev.blk.planner.pieces, a.id ≠ y.id) ∧
          ∃ q', plan (some q') t ∧ (planning.place y 0 slab).placements <+: q'.placements)) ∧
      (taken → empty → q.releasing = false → Gives o (releases planning)) ∧
      (¬ taken → empty → Gives o (fun t => ends t ∧
        ∀ slot x, b.cost.liveLine q.job = some (slot, x) → x.tally.charged = false → x.openCount = 0 →
          Slots.get slot t.dev.blk.cost.lines = none))) ∧
    (k = .release → parseChange k p = some (.release i) → q.releasing = true →
      (taken ∨ ¬ here .orphaned → empty → Gives o ends) ∧
      (¬ taken → here .orphaned → Gives o (plan (some { q with keptRelease := true })))) ∧
    (∀ abandoned total rs, k = .consume → parseChange k p = some (.consume i abandoned total rs) →
      q.state = .consuming ∨ (q.state = .reclaiming ∧ q.back = .consuming) →
      (taken → empty → Gives o (fun t => ends t ∧
        s.posts t (.planDone i (q.placements.filter (fun x => !q.abandoned || x.done)).length q.abandoned) ∧
        (b.saw.st = .finishing → t.dev.blk.saw.st = .idle ∧ t.dev.blk.saw.plan = none ∧
          t.dev.blk.saw.enc = b.saw.enc ∧ t.dev.blk.saw.cmd = b.saw.cmd ∧
          t.dev.blk.saw.dropT = if b.saw.waterWanted then some (b.now + 5000) else b.saw.dropT))) ∧
      (¬ taken → here .orphaned → Gives o (plan (some { q with keptConsume := true }))) ∧
      (¬ taken → ¬ here .orphaned → Gives o faulted)) ∧
    (k = .reclaim → parseChange k p = some (.reclaim i) → q.state = .reclaiming →
      let back : Plan := { q with state := q.back }
      (taken ∨ here .claimed →
        (q.keptRelease = true → Gives o (releases back)) ∧
        (q.keptRelease = false → q.keptConsume = true → Gives o (fun t =>
          plan (some { back with keptConsume := false }) t ∧ t.dev.blk.line.held .planner isConsume = true)) ∧
        (q.keptRelease = false → q.keptConsume = false → q.back ≠ .planning → Gives o (plan (some back)))) ∧
      (¬ taken → here .orphaned → Gives o (plan (some q))) ∧
      (¬ taken → ¬ here .claimed → ¬ here .orphaned →
        (q.keptRelease = true → empty → Gives o (fun t => ends t ∧ lost t)) ∧
        (q.keptRelease = false → Gives o faulted)))

/-! ## The saw -/

/-- GO (R146, R144, R150, R151, R152) and RESUME (R163): the cut is entered or taken up again, water is wanted, and the
grant held and STOP decide between WATER_WAIT, SPINUP, CUTTING and FAULTED; a FLOW_DROP is withdrawn and the ask check
offers FLOW_ASK (R147). The model's choices in it: GO on an empty cut list stops the drop timer (log 31), and a first pulse
begins on entry to CUTTING (log 14). -/
def Obligations.GoAndResumeTakeUpACut : Prop :=
  ∀ s : State, s.asked → s.dev.blk.pres.role = .cutter →
    let b := s.dev.blk
    let w := b.saw
    let kept (t : State) : Prop := t.dev.shop = s.dev.shop ∧ t.pending = s.pending ∧
      t.dev.blk.pres = { b.pres with serial := t.dev.blk.pres.serial } ∧ t.dev.blk.plant = b.plant ∧
      t.dev.blk.cost.clockT = b.cost.clockT ∧ t.dev.blk.meas.ma = b.meas.ma ∧ t.dev.blk.meas.mb = b.meas.mb ∧
      t.dev.blk.planner.pieces = b.planner.pieces ∧ t.dev.blk.saw.grant = w.grant ∧
      t.dev.blk.host.reply = some { status := .ok, payload := [], notice := false }
    let dry (t : State) : Prop := t.dev.blk.saw.blade = false ∧ t.dev.blk.saw.valve = 0 ∧
      t.dev.blk.saw.feedOn = false ∧ t.dev.blk.saw.spinT = none
    let running (t : State) : Prop := ∀ q, b.planner.plan = some q → q.releasing = false → q.state ≠ .reclaiming →
      t.dev.blk.planner.plan = some { q with state := .running, fault := none }
    let waits (t : State) : Prop := t.dev.blk.saw.st = .waterWait ∧ dry t ∧ running t ∧
      t.dev.blk.saw.holdT = if w.started then some (b.now + 30000) else none
    let spinsUp (t : State) : Prop := t.dev.blk.saw.st = .spinup ∧ t.dev.blk.saw.blade = true ∧
      t.dev.blk.saw.atSpeed = false ∧ t.dev.blk.saw.feedOn = false ∧ t.dev.blk.saw.spinT = some (b.now + 3000) ∧
      t.dev.blk.saw.valve = min w.grant w.need ∧ t.dev.blk.saw.holdT = none ∧ running t
    let stopped (t : State) : Prop := t.dev.blk.saw.st = .faulted ∧ t.dev.blk.saw.fault = some .stop ∧ dry t
    let bySpinup (ready : State → Prop) (o : Host.Outcome State Fault Refusal) : Prop :=
      (w.grant * 10 < w.need * 6 → Gives o (fun t => kept t ∧ ready t ∧ waits t)) ∧
      (w.need * 6 ≤ w.grant * 10 → b.stop = false → Gives o (fun t => kept t ∧ ready t ∧ spinsUp t)) ∧
      (w.need * 6 ≤ w.grant * 10 → b.stop = true → Gives o (fun t => kept t ∧ ready t ∧ stopped t))
    let line := b.line.withdraw .saw isFlowDrop false
    let asks : Prop := s.isLive ∧ line.held .saw isFlowAsk = false ∧
      ∀ e, s.dev.shop.rep.ledger.entryOf b.pres.station = some e → e.asked < w.need
    let atCut (n enc cmd : Nat) (t : State) : Prop := t.dev.blk.saw.cur = n ∧ t.dev.blk.saw.entered = true ∧
      t.dev.blk.saw.enc = enc ∧ t.dev.blk.saw.cmd = cmd ∧ t.dev.blk.saw.waterWanted = true ∧
      (w.plan ≠ none → asks → t.dev.blk.line = line.offer .saw (mkFrame .flowAsk (bytes2 w.need))) ∧
      (¬ asks → t.dev.blk.line = line)
    (w.st ≠ .loadWait → w.st ≠ .indexWait → exec .go s = .next (s.answered .wrongState [])) ∧
    (∀ p, w.st = .loadWait → w.plan = some p →
      (p.cuts = [] → Gives (exec .go s) (fun t => kept t ∧ t.dev.blk.saw.st = .finishing ∧
        t.dev.blk.saw.blade = false ∧ t.dev.blk.saw.valve = 0 ∧ t.dev.blk.saw.dropT = none ∧
        t.dev.blk.saw.waterWanted = w.waterWanted)) ∧
      (p.cuts ≠ [] → bySpinup (atCut 1 0 0) (exec .go s))) ∧
    (∀ p n c, w.st = .indexWait → w.plan = some p → nextPending p.cuts = some n → p.cuts[n - 1]? = some c →
      0 < c.length → w.feedOn = false →
      (w.atSpeed = false → w.blade = false → bySpinup (atCut n 0 0) (exec .go s)) ∧
      (w.atSpeed = true → w.need * 6 ≤ w.grant * 10 → Gives (exec .go s) (fun t => kept t ∧ atCut n 0 1 t ∧
        t.dev.blk.saw.st = .cutting ∧ t.dev.blk.saw.feedOn = true ∧ t.dev.blk.saw.started = true ∧
        t.dev.blk.saw.valve = min w.grant w.need ∧
        t.dev.blk.saw.feedRate = feedRate p.baseFeed p.need w.grant b.meas.derate ∧
        t.dev.blk.saw.pulsePeriod = 6000000 / t.dev.blk.saw.feedRate)) ∧
      (w.atSpeed = false → w.blade = true → w.need * 6 ≤ w.grant * 10 → Gives (exec .go s) (fun t => kept t ∧
        atCut n 0 0 t ∧ t.dev.blk.saw.st = .spinup ∧ t.dev.blk.saw.blade = true ∧ t.dev.blk.saw.atSpeed = false ∧
        t.dev.blk.saw.feedOn = false ∧ t.dev.blk.saw.spinT = w.spinT ∧ t.dev.blk.saw.valve = min w.grant w.need ∧
        t.dev.blk.saw.holdT = none ∧ running t)) ∧
      (w.grant * 10 < w.need * 6 → Gives (exec .go s) (fun t => kept t ∧ atCut n 0 0 t ∧ waits t))) ∧
    (w.st ≠ .faulted ∨ w.fault = some .slabLost → exec .resume s = .next (s.answered .wrongState [])) ∧
    (w.st = .faulted → w.fault ≠ some .slabLost →
      (w.resumeEntered = true → bySpinup (atCut w.resumeCut w.enc w.enc) (exec .resume s)) ∧
      (w.resumeEntered = false → bySpinup (atCut w.resumeCut 0 0) (exec .resume s)))

/-- A change of the own effective grant, by another station's ledger frame, in each state of the sequencer (R149 to
R153, R156, R142, R161), with GRANT_CHANGED (R100): CUTTING follows it or goes to HELD, HELD goes on, spins the blade
up or stops it dry, SPINUP falls back to WATER_WAIT, and WATER_WAIT spins up. The model's choices in it: the feed's
rate and period read 0 while it is off (log 41), a first pulse begins on entry to CUTTING (log 14), and the notice
stated is the first of the step, PLAN_FAULT ahead of GRANT_CHANGED (log 6); the grant of an own entry counts before
the station is LIVE too (log 56). -/
def Obligations.GrantChangesMoveTheSaw : Prop :=
  ∀ (k : Kind) (sender target : BitVec 4) (g : Word16) (p : List Byte) (s : State),
    k = .budget ∨ k = .flowAsk ∨ k = .flowDrop → s.takes g sender p → sender.toNat ≠ s.dev.blk.pres.station →
    s.dev.blk.pres.role = .cutter →
    let b := s.dev.blk
    let w := b.saw
    let o := exec (k.command sender target g p) s
    let before := effGrant s.dev.shop b
    let new := effGrant { s.dev.shop with gen := g, rep := (judgeFrame (Ctx.whole g) sender.toNat k p s.dev.shop.rep).rep } b
    new ≠ before → new ≠ w.grant →
    let much : Prop := w.need * 6 ≤ new * 10
    let some_ : Prop := w.need ≤ new * 4
    let valve := min new w.need
    let held : Saw := { w with grant := new }
    let noFeed : Saw := { held with feedOn := false, feedRate := 0, pulsePeriod := 0 }
    let dry (x : Saw) : Saw := { x with blade := false, spinT := none, atSpeed := false, valve := 0 }
    let spun (x : Saw) : Saw := { x with blade := true, spinT := some (b.now + 3000), atSpeed := false, valve := valve }
    let told (t : State) : Prop := s.posts t (.grantChanged new before g)
    let becomes (w' : Saw) : Prop := Gives o (fun t => t.dev.blk.saw = w' ∧ told t)
    let running (t : State) : Prop := ∀ q, b.planner.plan = some q → q.releasing = false → q.state ≠ .reclaiming →
      t.dev.blk.planner.plan = some { q with state := .running, fault := none }
    let cutting (t : State) : Prop := ∀ q, b.planner.plan = some q → q.releasing = false → q.state ≠ .reclaiming →
      t.dev.blk.planner.plan = some { q with state := .running, fault := none, started := true }
    let enters (w' : Saw) : Prop := Gives o (fun t => t.dev.blk.saw = w' ∧ told t ∧ running t)
    let stopped : Prop := Gives o (fun t => t.dev.blk.saw.st = .faulted ∧ t.dev.blk.saw.fault = some .stop ∧
      t.dev.blk.saw.blade = false ∧ t.dev.blk.saw.valve = 0 ∧ t.dev.blk.saw.feedOn = false ∧
      t.dev.blk.saw.grant = new ∧ s.posts t (.planFault .stop w.cur w.enc))
    (w.st = .idle ∨ w.st = .loadWait ∨ w.st = .finishing ∨ w.st = .faulted → becomes held) ∧
    (w.st = .indexWait →
      (w.blade = false → becomes held) ∧
      (w.blade = true → some_ → becomes { held with valve := valve }) ∧
      (w.blade = true → ¬ some_ → becomes { dry held with idleSpinT := none })) ∧
    (w.st = .waterWait → w.blade = false →
      (¬ much → becomes held) ∧
      (much → b.stop = false → enters (spun { held with st := .spinup, holdT := none })) ∧
      (much → b.stop = true → stopped)) ∧
    (w.st = .spinup →
      (much → becomes { held with valve := valve }) ∧
      (¬ much → enters
        { dry noFeed with
          st := .waterWait, idleSpinT := none, holdT := if w.started then some (b.now + 30000) else none })) ∧
    (w.st = .cutting →
      (∀ q, much → w.plan = some q →
        becomes { held with valve := valve, feedRate := feedRate q.baseFeed q.need new b.meas.derate }) ∧
      (¬ much → some_ → enters { noFeed with st := .held, holdT := some (b.now + 30000), valve := valve }) ∧
      (¬ much → ¬ some_ → enters (dry { noFeed with st := .held, holdT := some (b.now + 30000) }))) ∧
    (w.st = .held →
      (∀ q, much → w.atSpeed = true → w.plan = some q → w.enc < w.target → w.cmd < w.enc + 500 → Gives o (fun t =>
        told t ∧ cutting t ∧ t.dev.blk.saw =
          { held with
            st := .cutting, holdT := none, idleSpinT := none, started := true, feedOn := true, valve := valve
            cmd := w.cmd + 1, feedRate := feedRate q.baseFeed q.need new b.meas.derate
            pulsePeriod := 6000000 / feedRate q.baseFeed q.need new b.meas.derate })) ∧
      (much → w.atSpeed = false →
        (w.blade = true → enters { held with st := .spinup, holdT := none, valve := valve }) ∧
        (w.blade = false → b.stop = false → enters (spun { held with st := .spinup, holdT := none })) ∧
        (w.blade = false → b.stop = true → stopped)) ∧
      (¬ much → some_ →
        (w.blade = true → becomes { held with valve := valve }) ∧
        (w.blade = false → b.stop = false → becomes (spun held)) ∧
        (w.blade = false → b.stop = true → stopped)) ∧
      (¬ much → ¬ some_ → becomes (dry held)))

/-! ## The measurement unit, the plant unit and the saw's timers -/

/-- SAMPLE_TRIGGER (R103) and ANALOG_READING (R103 to R107, R109, R110, R112, R115, R21): a scan starts or is counted as missed; a
conversion ends on two readings within 8 or on its 32nd; the completed scan moves the values, and with four results the
cutter's tests or the plant's band and published value, and the entry into HALT asks for the HALT break. In an INERT
station the values move and no test is made, which for a CUTTER's own flags is the model's choice (log 48). A reading with no
scan changes nothing (log 3), and the clock stands at the trigger's deadline (log 4). -/
def Obligations.ScansMoveTheValues : Prop :=
  (∀ s : State,
    let m := s.dev.blk.meas
    exec .sampleTrigger s = .next
      { s with
        dev.blk.now := max s.dev.blk.now m.sampleT
        dev.blk.meas.sampleT := m.sampleT + 100
        dev.blk.meas.scan := if m.scan = none then some { maResult := none, readings := 0, last := none } else m.scan
        dev.blk.meas.missed := if m.scan = none then m.missed else min 65535 (m.missed + 1) }) ∧
  ∀ (v : BitVec 10) (s : State), s.dev.blk.host.rejoinPending = false →
    let b := s.dev.blk
    let m := b.meas
    let o := exec (.analogReading v) s
    (m.scan = none → o = .next s) ∧
    ∀ x, m.scan = some x →
      let ends : Prop := (∃ l, x.last = some l ∧ v.toNat ≤ l + 8 ∧ l ≤ v.toNat + 8) ∨ 31 ≤ x.readings
      (¬ ends → o = .next
        { s with dev.blk.meas.scan := some { x with readings := x.readings + 1, last := some v.toNat } }) ∧
      (ends → x.maResult = none → o = .next
        { s with dev.blk.meas.scan := some { maResult := some v.toNat, readings := 0, last := none } }) ∧
      (∀ a, ends → x.maResult = some a →
        let maHist := if m.maHist.length < 4 then m.maHist ++ [a] else m.maHist.tail ++ [a]
        let mbHist := if m.mbHist.length < 4 then m.mbHist ++ [v.toNat] else m.mbHist.tail ++ [v.toNat]
        let m1 : Meas := { m with scan := none, ma := a, mb := v.toNat, maHist := maHist, mbHist := mbHist }
        (maHist.length < 4 → o = .next { s with dev.blk.meas := m1 }) ∧
        (∀ a1 a2 a3 a4 b1 b2 b3 b4, maHist = [a1, a2, a3, a4] → mbHist = [b1, b2, b3, b4] →
          let fa := (a1 + a2 + a3 + a4) / 4
          let fb := (b1 + b2 + b3 + b4) / 4
          (b.pres.mem = .inert → o = .next { s with dev.blk.meas := m1 }) ∧
          (b.pres.mem ≠ .inert → b.pres.role = .cutter → o = .next
            { s with
              dev.blk.meas :=
                { m1 with
                  derate := decide (700 < fa)
                  jamT := if fa ≤ 900 then none else if m.jamT = none ∧ m.jam = false then some (b.now + 500) else m.jamT
                  jam := if fa ≤ 900 then false else m.jam
                  dryT := if 120 ≤ fb then none
                    else if m.valveOpen = true ∧ m.dryT = none ∧ m.dry = false then some (b.now + 2000) else m.dryT
                  dry := if 120 ≤ fb then false else m.dry }
              dev.blk.saw.feedRate :=
                if b.saw.st = .cutting ∧ m.derate ≠ decide (700 < fa) then
                  (match b.saw.plan with
                    | none => 0
                    | some p => feedRate p.baseFeed p.need b.saw.grant (decide (700 < fa)))
                else b.saw.feedRate }) ∧
          (b.pres.mem ≠ .inert → b.pres.role = .plant → Gives o (fun t =>
            t.dev.blk.meas = m1 ∧ t.dev.shop = s.dev.shop ∧ t.dev.blk.pres = b.pres ∧ t.dev.blk.saw = b.saw ∧
            t.dev.blk.plant.band = some (bandAfter b.plant.band (fa * 100 / 1023)) ∧
            t.dev.blk.plant.turbid = decide (600 < fb) ∧
            t.dev.blk.plant.correction = b.plant.correction ∧
            t.dev.blk.plant.published =
              publishedOf (some (bandAfter b.plant.band (fa * 100 / 1023))) (decide (600 < fb)) b.plant.correction ∧
            (bandAfter b.plant.band (fa * 100 / 1023) = .halt → b.plant.band ≠ some .halt → b.plant.standby = false →
              t.dev.blk.plant.lastSent = 0 ∧
              (b.pres.mem ≠ .mute → b.pres.mem ≠ .outside .listen → t.dev.blk.line.halting = true ∧
                (b.line.halting = false → ∀ e ∈ t.dev.blk.line.queue, e.inEmission = false)))))))

/-- The band after a scan (R109), the band budget (R110) and the published value (R112). -/
def Obligations.BandsAndThePublishedValue : Prop :=
  let lower (x : Band) : Nat := match x with | .halt => 0 | .low => 10 | .mid => 20 | .high => 40 | .top => 70
  let budget (x : Band) : Nat := match x with | .halt => 0 | .low => 800 | .mid => 2000 | .high => 4000 | .top => 6000
  let holds (x : Band) (level : Nat) : Prop := lower x ≤ level ∧ ∀ y : Band, lower x < lower y → level < lower y
  (∀ level, holds (bandAfter none level) level) ∧
  (∀ (x : Band) (level : Nat), level < lower x → holds (bandAfter (some x) level) level) ∧
  (∀ (x y : Band) (level : Nat), lower x < lower y → (∀ z : Band, lower x < lower z → lower y ≤ lower z) →
    (lower y + 2 ≤ level → bandAfter (some x) level = y) ∧
    (lower x ≤ level → level < lower y + 2 → bandAfter (some x) level = x)) ∧
  (∀ level, 70 ≤ level → bandAfter (some .top) level = .top) ∧
  (∀ turbid correction, publishedOf none turbid correction = none) ∧
  (∀ (x : Band) (turbid : Bool) (correction : Option Nat), publishedOf (some x) turbid correction =
    some (if x = .halt then 0
      else (if turbid then budget x / 2 else budget x) - (match correction with | none => 0 | some c => c)))

/-- FLOW_PULSE and FLOW_WINDOW_END (R108, R111, R112), and SPACING_TIMER_EXPIRY (R113, R114). The model's choices in it: a
timer that does not run changes nothing, nor does a window's end outside the plant's work (log 3), the clock stands at the
deadline (log 4), and the under count is taken before the overdraw test (log 34). -/
def Obligations.FlowWindowsAndTheSpacingTimer : Prop :=
  ∀ s : State,
    let b := s.dev.blk
    let m := b.meas
    let u := b.plant
    let flow := m.pulses * 10
    let works : Prop := b.pres.role = .plant ∧ b.pres.mem ≠ .inert
    (works → exec .flowPulse s = .next { s with dev.blk.meas.pulses := min 65535 (m.pulses + 1) }) ∧
    (¬ works → exec .flowPulse s = .next s) ∧
    (m.windowT = none → exec .flowWindowEnd s = .next s) ∧
    (∀ d, m.windowT = some d →
      let ended : State :=
        { s with
          dev.blk.now := max b.now d
          dev.blk.meas.window := m.pulses, dev.blk.meas.pulses := 0, dev.blk.meas.windowT := some (d + 1000) }
      (¬ works → exec .flowWindowEnd s = .next ended) ∧
      (works → Gives (exec .flowWindowEnd s) (fun t =>
        t.dev.blk.meas = ended.dev.blk.meas ∧ t.dev.blk.now = ended.dev.blk.now ∧ t.dev.shop = s.dev.shop ∧
        t.dev.blk.pres = b.pres ∧ t.dev.blk.plant.band = u.band ∧ t.dev.blk.plant.turbid = u.turbid ∧
        t.dev.blk.plant.published = publishedOf u.band u.turbid t.dev.blk.plant.correction ∧
        (u.band = none → t.dev.blk.plant.overCount = 0 ∧ t.dev.blk.plant.underCount = 0) ∧
        (∀ x, u.band = some x →
          let isOver : Prop := u.lastSent * 6 < flow * 5
          let fifth : Prop := isOver ∧ 4 ≤ u.overCount
          let isUnder : Prop := u.correction ≠ none ∧ flow ≤ (match u.published with | none => 0 | some v => v)
          (¬ isOver → t.dev.blk.plant.overCount = 0) ∧
          (isOver → u.overCount < 4 → t.dev.blk.plant.overCount = u.overCount + 1) ∧
          (fifth → t.dev.blk.plant.overCount = 0 ∧
            t.dev.blk.plant.correction =
              (if budgetAfter x u.turbid < flow then some (flow - budgetAfter x u.turbid) else none) ∧
            (budgetAfter x u.turbid < flow → t.dev.blk.plant.underCount = 0)) ∧
          (¬ fifth → isUnder → u.underCount < 9 →
            t.dev.blk.plant.underCount = u.underCount + 1 ∧ t.dev.blk.plant.correction = u.correction) ∧
          (¬ fifth → isUnder → 9 ≤ u.underCount →
            t.dev.blk.plant.underCount = 0 ∧ t.dev.blk.plant.correction = none) ∧
          (¬ fifth → u.correction ≠ none → ¬ isUnder →
            t.dev.blk.plant.underCount = 0 ∧ t.dev.blk.plant.correction = u.correction) ∧
          (¬ fifth → u.correction = none → t.dev.blk.plant.correction = none))))) ∧
    (u.spacingT = none → exec .spacingTimerExpiry s = .next s) ∧
    (∀ d v, u.spacingT = some d → u.published = some v → b.line.heldBudget = none →
      (v = u.lastSent ∨ ¬ s.isLive ∨ u.standby = true ∨ ¬ works → exec .spacingTimerExpiry s = .next
        { s with dev.blk.now := max b.now d, dev.blk.plant.spacingT := none }) ∧
      (v ≠ u.lastSent → s.isLive → u.standby = false → works → (∃ x, u.band = some x ∧ x ≠ .halt) →
        exec .spacingTimerExpiry s = .next
          { s with
            dev.blk.now := max b.now d
            dev.blk.plant.lastSent := v
            dev.blk.plant.spacingT := some (max b.now d + 500)
            dev.blk.line := b.line.offer .plant (mkFrame .budget (bytes2 v)) })) ∧
    (∀ d v w, u.spacingT = some d → u.published = some v → b.line.heldBudget = some w → works →
      let expired : State := { s with dev.blk.now := max b.now d, dev.blk.plant.spacingT := none }
      (w = v → exec .spacingTimerExpiry s = .next expired) ∧
      (w ≠ v → b.line.heldWaiting .plant isBudget = false → exec .spacingTimerExpiry s = .next
        { expired with dev.blk.line := b.line.withdraw .plant isBudget true }) ∧
      (w ≠ v → b.line.heldWaiting .plant isBudget = true → s.isLive → u.standby = false →
        (∃ x, u.band = some x ∧ x ≠ .halt) → exec .spacingTimerExpiry s = .next
          { expired with
            dev.blk.plant.lastSent := v
            dev.blk.line := (b.line.withdraw .plant isBudget true).offer .plant (mkFrame .budget (bytes2 v)) }))

/-- Standby and the last sent value (R96 to R98, R113, R114, R54, R55). Another station's BUDGET taken while the plant
is absent puts the unit in standby, and the ledger's new budget is its last sent value; its own BUDGET taken makes its
value the last sent one, one void for OTHER_PLANT puts it in standby, and one void for another reason gives it the
ledger's budget. The plant's absence ends standby and gives it 0, and a published value is offered from there. On
becoming LIVE with another plant it stands by. Where no comparison is meant to follow, nothing is published.
PLANT_CONFLICT stands first among the notices of its step, and at an own JOIN the absence is told before the entry:
the model's order (log 6). That the last sent value stays the ledger's budget on entering standby is the model's order
of the report's comparison and that entry (log 55). The station's own frame is told by log 2. -/
def Obligations.PlantStandsByAndTakesItsOutcomes : Prop :=
  ∀ (sender : BitVec 4) (g : Word16) (p : List Byte) (s : State),
    s.dev.blk.pres.role = .plant → s.hears sender p →
    let b := s.dev.blk
    let u := b.plant
    let r := s.dev.shop.rep
    let own := b.pres.station
    let mine : Prop := sender.toNat = own
    let stands (x : Nat) (t : State) : Prop := t.dev.blk.plant.standby = true ∧
      t.dev.blk.line.heldWaiting .plant isBudget = false ∧ s.posts t (.plantConflict x g)
    let offered (v : Nat) (t : State) : Prop := t.dev.blk.plant.standby = false ∧ t.dev.blk.plant.lastSent = v ∧
      t.dev.blk.line.heldBudget = some v ∧ t.dev.blk.plant.spacingT = some (b.now + 500)
    let absent (o : Host.Outcome State Fault Refusal) : Prop :=
      (u.published = none → Gives o (fun t => t.dev.blk.plant.standby = false ∧ t.dev.blk.plant.lastSent = 0)) ∧
      (∀ v, s.isLive → u.published = some v → 0 < v → v ≤ 8000 → u.band ≠ none → u.band ≠ some .halt →
        b.line.heldBudget = none → u.spacingT = none → Gives o (offered v))
    let current : Prop := s.dev.shop.state = .current ∧ g = s.dev.shop.gen + 1
    (current →
      (∀ x y : Byte, p = [x, y] → be16 x y ≤ 8000 → roleOf sender.toNat r = some .plant → ¬ mine →
        let o := exec (.budget sender g p) s
        (r.ledger.plant = none → u.standby = false → Gives o (fun t => stands sender.toNat t ∧
          t.dev.blk.plant.lastSent = be16 x y)) ∧
        (r.ledger.plant = none ∧ u.standby = true ∨ r.ledger.plant = some sender.toNat →
          u.standby = true ∨ u.published = none → Gives o (fun t => t.dev.blk.plant.lastSent = be16 x y ∧
            t.dev.blk.plant.standby = u.standby))) ∧
      (∀ x y : Byte, p = [x, y] → be16 x y ≤ 8000 → s.ownFrame sender .budget →
        let o := exec (.budget sender g p) s
        (roleOf own r = some .plant → r.ledger.plant = none ∨ r.ledger.plant = some own →
          u.published = none ∨ u.published = some (be16 x y) → Gives o (fun t =>
            t.dev.blk.plant.lastSent = be16 x y ∧ t.dev.blk.plant.standby = u.standby)) ∧
        (∀ z, roleOf own r = some .plant → r.ledger.plant = some z → z ≠ own → u.standby = false →
          Gives o (stands z)) ∧
        (roleOf own r ≠ some .plant → u.published = none → Gives o (fun t =>
          t.dev.blk.plant.lastSent = r.ledger.budget ∧ t.dev.blk.plant.standby = u.standby))) ∧
      (∀ a : Byte, p = [a] → within 1 15 a.toNat = true → memberOf a.toNat r = true → ¬ mine → a.toNat ≠ own →
        r.ledger.plant = some a.toNat → absent (exec (.gone sender g p) s)) ∧
      (∀ role : Role, p = [byte1 role.code] → memberOf sender.toNat r = true → ¬ mine →
        r.ledger.plant = some sender.toNat → absent (exec (.join sender g p) s)) ∧
      (∀ role : Role, p = [byte1 role.code] → s.ownFrame sender .join → b.pres.mem = .joining →
        (∀ z, r.ledger.plant = some z → z ≠ own → Gives (exec (.join sender g p) s) (fun t =>
          t.dev.blk.plant.standby = true ∧ (u.standby = false → t.dev.blk.line.heldWaiting .plant isBudget = false))) ∧
        (memberOf own r = true → r.ledger.plant = some own → u.published = none →
          Gives (exec (.join sender g p) s) (fun t => t.dev.blk.plant.standby = false ∧
            t.dev.blk.plant.lastSent = 0)))) ∧
    (s.ownFrame sender .rebase → s.dev.shop.state ≠ .current → s.dev.shop.build = none →
      let o := exec (.rebase sender g p) s
      (r.ledger.plant = none → u.published = none → Gives o (fun t => t.dev.blk.plant.standby = false ∧
        t.dev.blk.plant.lastSent = r.ledger.budget)) ∧
      (∀ z, r.ledger.plant = some z → z ≠ own → b.pres.mem = .member → memberOf own r = true → Gives o (fun t =>
        t.dev.blk.plant.standby = true ∧ t.dev.blk.plant.lastSent = r.ledger.budget)))

/-- JAM_TIMER_EXPIRY, DRY_TIMER_EXPIRY (R106, R107, R160), STOP_INPUT (R161) and HOLD_TIMER_EXPIRY (R154): the condition
stands, and where the saw is at work it faults and stops at once with its counts kept (R158). The model's choices in it: a
timer that does not run changes nothing, nor does a hold timer outside HELD and WATER_WAIT but its own stop (log 3), and the
clock stands at the deadline (log 4). -/
def Obligations.FaultsStopTheSaw : Prop :=
  ∀ s : State,
    let b := s.dev.blk
    let m := b.meas
    let w := b.saw
    let faulted (now : Nat) (r : FaultReason) (t : State) : Prop :=
      t.pending = s.pending ∧ t.dev.shop = s.dev.shop ∧ t.dev.blk.now = now ∧ t.dev.blk.pres = b.pres ∧
      t.dev.blk.line = b.line ∧ t.dev.blk.plant = b.plant ∧ t.dev.blk.cost = b.cost ∧ t.dev.blk.asking = b.asking ∧
      t.dev.blk.saw.st = .faulted ∧ t.dev.blk.saw.fault = some r ∧ t.dev.blk.saw.blade = false ∧
      t.dev.blk.saw.valve = 0 ∧ t.dev.blk.saw.feedOn = false ∧ t.dev.blk.saw.spinT = none ∧
      t.dev.blk.saw.holdT = none ∧ t.dev.blk.saw.idleSpinT = none ∧ t.dev.blk.saw.enc = w.enc ∧
      t.dev.blk.saw.cmd = w.cmd ∧ t.dev.blk.saw.plan = w.plan ∧ t.dev.blk.saw.grant = w.grant ∧
      t.dev.blk.saw.dropT = (if w.waterWanted then some (now + 5000) else w.dropT) ∧
      (∀ c, w.st ≠ .indexWait → w.entered = true → w.cut? w.cur = some c → c.done = false →
        t.dev.blk.saw.resumeCut = w.cur ∧ t.dev.blk.saw.resumeEntered = true) ∧
      (∀ n, w.st = .indexWait → w.nextCut = some n →
        t.dev.blk.saw.resumeCut = n ∧ t.dev.blk.saw.resumeEntered = false) ∧
      (∀ q, b.planner.plan = some q → q.releasing = false → q.state ≠ .reclaiming →
        t.dev.blk.planner.plan = some { q with state := .faulted, fault := some r }) ∧
      (b.pres.mem ≠ .inert → b.host.notices.length < 16 →
        t.dev.blk.host.notices = b.host.notices ++ [.planFault r w.cur w.enc])
    (m.jamT = none → exec .jamTimerExpiry s = .next s) ∧
    (∀ d, m.jamT = some d →
      (w.blade = false → exec .jamTimerExpiry s = .next
        { s with dev.blk.now := max b.now d, dev.blk.meas.jamT := none, dev.blk.meas.jam := true }) ∧
      (w.blade = true → Gives (exec .jamTimerExpiry s) (fun t =>
        faulted (max b.now d) .jam t ∧ t.dev.blk.meas.jamT = none ∧ t.dev.blk.meas.jam = true))) ∧
    (m.dryT = none → exec .dryTimerExpiry s = .next s) ∧
    (∀ d, m.dryT = some d →
      (w.valve = 0 → exec .dryTimerExpiry s = .next
        { s with dev.blk.now := max b.now d, dev.blk.meas.dryT := none, dev.blk.meas.dry := true }) ∧
      (0 < w.valve → Gives (exec .dryTimerExpiry s) (fun t =>
        faulted (max b.now d) .dry t ∧ t.dev.blk.meas.dryT = none ∧ t.dev.blk.meas.dry = false ∧
          t.dev.blk.meas.valveOpen = false))) ∧
    exec (.stopInput false) s = .next { s with dev.blk.stop := false } ∧
    (w.blade = false → w.feedOn = false → exec (.stopInput true) s = .next { s with dev.blk.stop := true }) ∧
    (w.blade = true ∨ w.feedOn = true → Gives (exec (.stopInput true) s) (fun t =>
      faulted b.now .stop t ∧ t.dev.blk.stop = true)) ∧
    (w.holdT = none → exec .holdTimerExpiry s = .next s) ∧
    (∀ d, w.holdT = some d →
      (w.st ≠ .held → w.st ≠ .waterWait → exec .holdTimerExpiry s = .next
        { s with dev.blk.now := max b.now d, dev.blk.saw.holdT := none }) ∧
      (w.st = .held ∨ w.st = .waterWait → Gives (exec .holdTimerExpiry s) (faulted (max b.now d) .water)))

/-- SPIN_TIMER_EXPIRY (R142, R151, R152), with a stall on entry to CUTTING (R143, R159) and a target reached already (R144,
R155, R156), IDLE_SPIN_EXPIRY (R156) and DROP_TIMER_EXPIRY (R148). On entry the target is tested before the feed starts, and
with it reached no pulse begins, else the first one does (log 14). The notice stated is the first of the step (log 6). A
timer that does not run changes nothing (log 3), and the clock stands at the deadline (log 4). -/
def Obligations.SawTimersMoveTheSaw : Prop :=
  ∀ s : State,
    let b := s.dev.blk
    let w := b.saw
    (w.spinT = none → exec .spinTimerExpiry s = .next s) ∧
    (∀ d, w.spinT = some d →
      (w.st ≠ .spinup ∨ w.blade = false → exec .spinTimerExpiry s = .next
        { s with dev.blk.now := max b.now d, dev.blk.saw.spinT := none, dev.blk.saw.atSpeed := w.blade }) ∧
      (∀ p, w.st = .spinup → w.blade = true → w.plan = some p → w.enc < w.target → w.cmd < w.enc + 500 →
        Gives (exec .spinTimerExpiry s) (fun t =>
          t.dev.shop = s.dev.shop ∧ t.dev.blk.line = b.line ∧ t.dev.blk.pres = b.pres ∧ t.dev.blk.host = b.host ∧
          t.dev.blk.cost = b.cost ∧ t.dev.blk.saw.st = .cutting ∧ t.dev.blk.saw.atSpeed = true ∧
          t.dev.blk.saw.feedOn = true ∧ t.dev.blk.saw.started = true ∧ t.dev.blk.saw.enc = w.enc ∧
          t.dev.blk.saw.cmd = w.cmd + 1 ∧ t.dev.blk.saw.valve = min w.grant p.need ∧
          t.dev.blk.saw.feedRate = feedRate p.baseFeed p.need w.grant b.meas.derate)) ∧
      (∀ p, w.st = .spinup → w.blade = true → w.plan = some p → w.enc < w.target → w.enc + 500 ≤ w.cmd →
        Gives (exec .spinTimerExpiry s) (fun t =>
          t.dev.shop = s.dev.shop ∧ t.dev.blk.line = b.line ∧ t.dev.blk.pres = b.pres ∧ t.dev.blk.cost = b.cost ∧
          t.dev.blk.saw.st = .faulted ∧ t.dev.blk.saw.fault = some .stall ∧ t.dev.blk.saw.blade = false ∧
          t.dev.blk.saw.valve = 0 ∧ t.dev.blk.saw.feedOn = false ∧ t.dev.blk.saw.started = true ∧
          t.dev.blk.saw.enc = w.enc ∧ t.dev.blk.saw.cmd = w.cmd + 1 ∧
          (b.pres.mem ≠ .inert → s.posts t (.planFault .stall w.cur w.enc)))) ∧
      (∀ p c n, w.st = .spinup → w.blade = true → w.plan = some p → w.cut? w.cur = some c → w.target ≤ w.enc →
        p.cuts.modify (w.cur - 1) (fun x => { x with done := true }) = n →
        Gives (exec .spinTimerExpiry s) (fun t =>
          t.dev.shop = s.dev.shop ∧ t.dev.blk.saw.enc = w.enc ∧ t.dev.blk.saw.cmd = w.cmd ∧
          t.dev.blk.saw.feedOn = false ∧ t.dev.blk.saw.started = true ∧ t.dev.blk.saw.plan = some { p with cuts := n } ∧
          (b.pres.mem ≠ .inert → s.posts t (.cutDone w.cur c.kind c.job)) ∧
          ((∃ x ∈ n, x.done = false) → t.dev.blk.saw.st = .indexWait ∧ t.dev.blk.saw.blade = true ∧
            t.dev.blk.saw.valve = min w.grant p.need ∧ t.dev.blk.saw.idleSpinT = some (max b.now d + 20000)) ∧
          ((∀ x ∈ n, x.done = true) → t.dev.blk.saw.st = .finishing ∧ t.dev.blk.saw.blade = false ∧
            t.dev.blk.saw.valve = 0)))) ∧
    (w.idleSpinT = none → exec .idleSpinExpiry s = .next s) ∧
    (∀ d, w.idleSpinT = some d → Gives (exec .idleSpinExpiry s) (fun t =>
      t.dev.blk.now = max b.now d ∧ t.dev.blk.saw =
        { w with idleSpinT := none, blade := false, spinT := none, atSpeed := false, valve := 0 } ∧
      t.dev.shop = s.dev.shop ∧ t.dev.blk.planner = b.planner ∧ t.dev.blk.line = b.line ∧ t.dev.blk.host = b.host ∧
      (0 < w.valve → t.dev.blk.meas = { b.meas with valveOpen := false, dryT := none, dry := false }) ∧
      (w.valve = 0 → t.dev.blk.meas = b.meas))) ∧
    (w.dropT = none → exec .dropTimerExpiry s = .next s) ∧
    (∀ d, w.dropT = some d →
      let line := b.line.withdraw .saw isFlowAsk false
      exec .dropTimerExpiry s = .next
        { s with
          dev.blk.now := max b.now d
          dev.blk.saw.dropT := none
          dev.blk.saw.waterWanted := false
          dev.blk.line :=
            if (∃ e ∈ s.dev.shop.rep.ledger.entries, e.station = b.pres.station) ∧ line.held .saw isFlowDrop = false ∧
                b.pres.mem ≠ .inert ∧ b.pres.mem ≠ .mute then
              line.offer .saw (mkFrame .flowDrop [])
            else line })

/-- ENC_COUNT (R144, R155) and FEED_PULSE (R143, R159), with the feed rate of R152. The cut face is charged to each live
line of the job, where two are live to both (log 43). A feed pulse while the feed is off changes nothing (log 3). -/
def Obligations.CarriageCountsAndPulses : Prop :=
  (∀ base need g : Nat, feedRate base need g false = base * min g need / need ∧
    feedRate base need g true = base * min g need / need / 2) ∧
  ∀ s : State,
    let b := s.dev.blk
    let w := b.saw
    let enc := min 65535 (w.enc + 1)
    let works : Prop := b.pres.role = .cutter ∧ b.pres.mem ≠ .inert
    (¬ works → exec .encCount s = .next s) ∧
    (works → w.st ≠ .cutting ∨ enc < w.target → exec .encCount s = .next { s with dev.blk.saw.enc := enc }) ∧
    (∀ p c n, works → w.st = .cutting → w.plan = some p → w.cut? w.cur = some c → w.target ≤ enc →
      p.cuts.modify (w.cur - 1) (fun x => { x with done := true }) = n →
      Gives (exec .encCount s) (fun t =>
        t.dev.shop = s.dev.shop ∧ t.dev.blk.saw.enc = enc ∧ t.dev.blk.saw.cmd = w.cmd ∧
        t.dev.blk.saw.feedOn = false ∧ t.dev.blk.saw.plan = some { p with cuts := n } ∧
        (b.pres.mem ≠ .inert → b.host.notices.length < 16 →
          t.dev.blk.host.notices = b.host.notices ++ [.cutDone w.cur c.kind c.job]) ∧
        t.dev.blk.cost = b.cost.mapLive c.job (fun x =>
          { x with tally := x.tally.add { Tally.zero with face := c.length * p.thickness } }) ∧
        ((∃ x ∈ n, x.done = false) →
          t.dev.blk.saw.st = .indexWait ∧ t.dev.blk.saw.idleSpinT = some (b.now + 20000) ∧
            t.dev.blk.saw.blade = w.blade ∧ t.dev.blk.saw.valve = w.valve ∧ t.dev.blk.line = b.line) ∧
        ((∀ x ∈ n, x.done = true) → t.dev.blk.saw.st = .finishing ∧ t.dev.blk.saw.blade = false ∧
          t.dev.blk.saw.valve = 0))) ∧
    (w.feedOn = false → exec .feedPulse s = .next s) ∧
    (w.feedOn = true → w.cmd + 1 ≤ w.enc + 500 → exec .feedPulse s = .next
      { s with dev.blk.saw.cmd := w.cmd + 1, dev.blk.saw.pulsePeriod := 6000000 / w.feedRate }) ∧
    (w.feedOn = true → w.enc + 500 < w.cmd + 1 → Gives (exec .feedPulse s) (fun t =>
      t.dev.shop = s.dev.shop ∧ t.dev.blk.line = b.line ∧ t.dev.blk.saw.st = .faulted ∧
      t.dev.blk.saw.fault = some .stall ∧ t.dev.blk.saw.feedOn = false ∧ t.dev.blk.saw.blade = false ∧
      t.dev.blk.saw.valve = 0 ∧ t.dev.blk.saw.cmd = w.cmd + 1 ∧ t.dev.blk.saw.enc = w.enc))

/-- The report states of a cost line and the zero report (R177 to R180, R44, R47). A taken JOB_CLOSE makes the job's
ACCRUING line DUE, and SENT with its COST_REPORT when no placement is open, the first-job hold is not on it and the station
is not in MUTE; a station in the pending set without a line of the job offers a zero report. A zero report that waits is
withdrawn when the station leaves the pending set. The own COST_REPORT taken empties the line's slot, void makes it REFUSED
with REPORT_REFUSED; discarded, its line is DUE again. A replica that becomes CURRENT by the own REBASE makes the lines of
jobs no longer OPEN report. Stated with no piece in the queue, so that no search touches the lines; the order of several
reports is log 42, and which of two reports of one job is meant log 19. Where a REJOIN discards a report the saw's plan copy
has the need of its thickness (`StepKeepsTheSawLaws`), and where a zero report is withdrawn those held name jobs of 1 to
65535 (`StepKeepsTheShopState`). REPORT_REFUSED stands first among the notices of its
step (log 6), and the station's own frame is told by log 2. -/
def Obligations.CostLinesReport : Prop :=
  ∀ (sender : BitVec 4) (g : Word16) (s : State),
    let b := s.dev.blk
    let r := s.dev.shop.rep
    let c := b.cost
    let line (slot : Nat) (t : State) : Option CostLine := Slots.get slot t.dev.blk.cost.lines
    let report (slot : Nat) (x : CostLine) : Frame :=
      { kind := .costReport, target := 0, payload := bytes2 x.job ++ x.tally.bytes, line := some slot }
    let zero (n : Nat) : Frame := mkFrame .costReport (bytes2 n ++ List.replicate 26 0)
    let reports (slot : Nat) (x : CostLine) (t : State) : Prop :=
      if x.openCount = 0 ∧ (∀ f, c.first = some f → f.2 ≠ slot) ∧ b.pres.mem ≠ .mute then
        line slot t = some { x with state := .sent } ∧ .line slot x.job ∈ t.dev.blk.cost.reports ∧
          t.holds .cost (report slot x)
      else line slot t = some { x with state := .due }
    b.planner.pieces = [] → Slots.wf c.lines = true →
    (∀ (n : Nat) (j : Job), within 1 65535 n = true → s.takes g sender (bytes2 n) → r.job? n = some j →
      j.state = .opened → sender.toNat ≠ b.pres.station ∨ s.ownFrame sender .jobClose →
      let o := exec (.jobClose sender g (bytes2 n)) s
      (∀ slot x, Slots.get slot c.lines = some x → x.job = n → x.state = .accruing →
        (∀ m, Report.line slot m ∉ c.reports) → Gives o (reports slot x)) ∧
      ((∃ m ∈ r.members, m.station = b.pres.station ∧ m.role = .cutter) → b.pres.role = .cutter →
        b.pres.mem ≠ .mute → .zero n ∉ c.reports →
        (∀ y ∈ c.lines, y.2.job = n → y.2.state = .refused) →
        Gives o (fun t => .zero n ∈ t.dev.blk.cost.reports ∧ t.holds .cost (zero n)))) ∧
    (∀ (n : Nat) (j : Job), s.takes g sender [byte1 b.pres.station] → within 1 15 b.pres.station = true →
      memberOf b.pres.station r = true → sender.toNat ≠ b.pres.station → r.job? n = some j → j.state = .closing →
      b.pres.station ∈ j.pending → .zero n ∈ c.reports → c.reports.Nodup →
      (∀ m, Report.zero m ∈ c.reports → within 1 65535 m = true) →
      b.line.heldWaiting .cost (isZeroReport n) = true →
      Gives (exec (.gone sender g [byte1 b.pres.station]) s) (fun t => .zero n ∉ t.dev.blk.cost.reports ∧
        t.dev.blk.line.heldWaiting .cost (isZeroReport n) = false)) ∧
    (∀ (n : Nat) (sums : Tally), within 1 65535 n = true → sums.lawful = true →
      let p := reportPayload n sums
      s.takes g sender p → s.ownFrame sender .costReport → c.reports.Nodup →
      let o := exec (.costReport sender g p) s
      let taken : Prop := (judgeFrame (Ctx.whole g) sender.toNat .costReport p r).void = none
      (∀ slot x, c.reportOf n = some (.line slot n) → Slots.get slot c.lines = some x →
        (taken → Gives o (fun t => line slot t = none ∧ .line slot n ∉ t.dev.blk.cost.reports)) ∧
        (¬ taken → Gives o (fun t => line slot t = some { x with state := .refused } ∧
          .line slot n ∉ t.dev.blk.cost.reports ∧ s.posts t (.reportRefused slot n g)))) ∧
      (c.reportOf n = some (.zero n) → Gives o (fun t => .zero n ∉ t.dev.blk.cost.reports))) ∧
    (∀ (slot : Nat) (x : CostLine), b.saw.planLaw = true → b.host.rejoinPending = true → b.line.emitting = none →
      b.planner.plan = none →
      c.reportOf x.job = some (.line slot x.job) → Slots.get slot c.lines = some x → c.reports.Nodup →
      within 1 65535 x.job = true →
      b.line.frames.filter (fun w => w.producer == .cost) = [{ producer := .cost, frame := report slot x }] →
      Gives (exec .rejoinTakesEffect s) (fun t => line slot t = some { x with state := .due } ∧
        .line slot x.job ∉ t.dev.blk.cost.reports)) ∧
    (∀ (p : List Byte) (slot : Nat) (x : CostLine), s.hears sender p → s.ownFrame sender .rebase →
      s.dev.shop.state ≠ .current → s.dev.shop.build = none → (∀ e ∈ r.ledger.entries, e.station ≠ b.pres.station) →
      Slots.get slot c.lines = some x → x.state = .accruing → (∀ j, r.job? x.job = some j → j.state ≠ .opened) →
      (∀ m, Report.line slot m ∉ c.reports) → Gives (exec (.rebase sender g p) s) (reports slot x))

/-- COST_CLOCK (R174): with the blade on, the charge job's live line takes one blade second and the valve's flow. And the
stone of a taken CONSUME (R176): the waste is shared out over the jobs of the cut pieces by area, rounded down, the
remainder goes to the plan's first job, and nothing is lost; each share is charged to its job's live line with its stone
cost, and then the line's count of open placements falls by the job's cut pieces. Where two lines of a job are live, both
are charged: the model's choice (log 43). A clock that does not run changes nothing (log 3), and the time stands at the
clock's deadline, the next one a second later (log 4). -/
def Obligations.ChargesOfTheClockAndOfStone : Prop :=
  (∀ s : State,
      let b := s.dev.blk
      let w := b.saw
      (b.cost.clockT = none → exec .costClock s = .next s) ∧
      (∀ d, b.cost.clockT = some d →
        let ticked : State := { s with dev.blk.now := max b.now d, dev.blk.cost.clockT := some (d + 1000) }
        let charged (job : Nat) : State :=
          { ticked with
            dev.blk.cost.lines := b.cost.lines.map (fun x => (x.1,
              if (x.2.state = .accruing ∨ x.2.state = .due) ∧ x.2.job = job then
                { x.2 with
                  tally :=
                    { x.2.tally with
                      stone := min maxSum x.2.tally.stone, waste := min maxSum x.2.tally.waste
                      cost := min maxSum x.2.tally.cost, face := min maxSum x.2.tally.face
                      pieces := min 65535 x.2.tally.pieces
                      water := min maxSum (x.2.tally.water + w.valve), blade := min maxSum (x.2.tally.blade + 1) } }
              else x.2)) }
        (w.blade = false → exec .costClock s = .next ticked) ∧
        (∀ c, w.blade = true → w.st ≠ .indexWait → w.entered = true → w.cut? w.cur = some c → c.done = false →
          exec .costClock s = .next (charged c.job)) ∧
        (∀ n c, w.blade = true → w.st = .indexWait → w.nextCut = some n → w.cut? n = some c →
          exec .costClock s = .next (charged c.job)))) ∧
  (∀ (f : Figures) (l : List Settlement) (first : Nat),
      f.pieceTotal + f.recorded ≤ f.area → (l.map (fun x => x.area)).sum = f.pieceTotal → (∀ x ∈ l, 0 < x.area) →
      let waste := f.area - f.pieceTotal - f.recorded
      let areaOfJob (j : Nat) : Nat := ((l.filter (fun x => x.job == j)).map (fun x => x.area)).sum
      let shares := wasteShares f l (some first)
      (shares.map (fun p => p.2)).sum = waste ∧
      (shares.map (fun p => p.1)).Nodup ∧
      (∀ p ∈ shares, p.1 ≠ first → p.2 = waste * areaOfJob p.1 / f.pieceTotal) ∧
      (∀ p ∈ shares, p.1 = first ∨ ∃ x ∈ l, x.job = p.1) ∧
      (∀ x ∈ l, ∃ p ∈ shares, p.1 = x.job) ∧
      (∀ j share, stoneTally f l j share =
        { stone := areaOfJob j, waste := share, cost := (areaOfJob j + share) * f.rate / 1000000, water := 0, blade := 0
          face := 0, pieces := (l.filter (fun x => x.job == j)).length })) ∧
  ∀ (f : Figures) (l : List Settlement) (c : CostUnit),
    let shares := wasteShares f l (c.first.map (fun p => p.1))
    let charged (x : CostLine) : CostLine :=
      if x.state = .accruing ∨ x.state = .due then
        { x with
          tally := match shares.find? (fun p => p.1 == x.job) with
            | some p => x.tally.add (stoneTally f l x.job p.2)
            | none => x.tally
          openCount := x.openCount - (l.filter (fun a => a.job == x.job)).length }
      else x
    c.stoneCharge f l =
      { c with lines := c.lines.map (fun p => (p.1, charged p.2)), figures := none, settled := none }
end

