-- ==== Sys2Proof/Laws/Line.lean ====
section
/-! SUPPORT. The outbound queue: each of its operations keeps the queue sound (R13, R14, R20), and what each leaves
alone. -/

namespace Sys2Proof.Machine

/-- The soundness of the queue, clause by clause. -/
structure Line.Sound (l : Line) : Prop where
  len : l.queue.length ≤ 12
  one : (l.queue.filter (·.inEmission)).length ≤ 1
  fails : l.failures ≤ 7
  waits : l.waitList = [] ∨ l.queue.length = 12
  behind : ∀ w ∈ l.backlog, ∃ v ∈ l.waitList, v.producer = w.producer

theorem Line.sound_iff (l : Line) : l.sound = true ↔ l.Sound := by
  unfold Line.sound
  simp only [Bool.and_eq_true, decide_eq_true_eq, Bool.or_eq_true, List.isEmpty_iff, beq_iff_eq, List.all_eq_true,
    List.any_eq_true]
  exact ⟨fun ⟨⟨⟨⟨h1, h2⟩, h3⟩, h4⟩, h5⟩ => ⟨h1, h2, h3, h4, h5⟩, fun ⟨h1, h2, h3, h4, h5⟩ => ⟨⟨⟨⟨h1, h2⟩, h3⟩, h4⟩, h5⟩⟩

/-- What an operation of the queue leaves alone: the receiver, the transmitter's flags and the counts. -/
structure Line.SameWire (a c : Line) : Prop where
  rx : c.rx = a.rx
  idle : c.idle = a.idle
  inBreak : c.inBreak = a.inBreak
  halting : c.halting = a.halting
  txDone : c.txDone = a.txDone
  failures : c.failures = a.failures
  yielding : c.yielding = a.yielding
  restT : c.restT = a.restT
  lastDiscard : c.lastDiscard = a.lastDiscard
  badStop : c.badStop = a.badStop

theorem Line.SameWire.refl (l : Line) : Line.SameWire l l := ⟨rfl, rfl, rfl, rfl, rfl, rfl, rfl, rfl, rfl, rfl⟩

theorem Line.SameWire.trans {a c e : Line} (h : Line.SameWire a c) (k : Line.SameWire c e) : Line.SameWire a e :=
  ⟨k.rx.trans h.rx, k.idle.trans h.idle, k.inBreak.trans h.inBreak, k.halting.trans h.halting,
    k.txDone.trans h.txDone, k.failures.trans h.failures, k.yielding.trans h.yielding, k.restT.trans h.restT,
    k.lastDiscard.trans h.lastDiscard, k.badStop.trans h.badStop⟩

/-! ## The entries in emission -/

/-- An entry joins the queue and no other moves. -/
theorem insertEntry_perm (e : OutEntry) (l : List OutEntry) : (insertEntry e l).Perm (e :: l) := by
  induction l with
  | nil => exact List.Perm.refl _
  | cons a rest ih =>
    unfold insertEntry
    split
    · exact (List.Perm.cons a ih).trans (List.Perm.swap e a rest)
    · exact List.Perm.refl _

/-- A WAITING entry that joins leaves the entries in emission as they are. -/
theorem insertEntry_emitting (e : OutEntry) (l : List OutEntry) (h : e.inEmission = false) :
    ((insertEntry e l).filter (·.inEmission)).length = (l.filter (·.inEmission)).length := by
  have hp := ((insertEntry_perm e l).filter (·.inEmission)).length_eq
  simpa [List.filter_cons, h] using hp

/-! ## Offering -/

theorem Line.enqueue_queue_length (p : Producer) (f : Frame) (l : Line) :
    (l.enqueue p f).queue.length = l.queue.length + 1 := by
  simpa [Line.enqueue] using (insertEntry_perm _ l.queue).length_eq

theorem Line.enqueue_sameWire (p : Producer) (f : Frame) (l : Line) : Line.SameWire l (l.enqueue p f) :=
  ⟨rfl, rfl, rfl, rfl, rfl, rfl, rfl, rfl, rfl, rfl⟩

theorem Line.enqueue_one {p : Producer} {f : Frame} {l : Line} (h : (l.queue.filter (·.inEmission)).length ≤ 1) :
    ((l.enqueue p f).queue.filter (·.inEmission)).length ≤ 1 := by
  simpa [Line.enqueue, insertEntry_emitting] using h

/-- What an offer does to the queue, the wait list and the backlog (R14): one of four things. -/
theorem Line.offer_cases (p : Producer) (f : Frame) (l : Line) :
    (l.queue.length < 12 ∧ l.offer p f = l.enqueue p f) ∨
      (12 ≤ l.queue.length ∧ p = .host ∧ l.offer p f = l) ∨
      (12 ≤ l.queue.length ∧ p ≠ .host ∧ (∃ w ∈ l.waitList, w.producer = p) ∧
        l.offer p f = { l with backlog := l.backlog ++ [{ producer := p, frame := f }] }) ∨
      (12 ≤ l.queue.length ∧ p ≠ .host ∧ (∀ w ∈ l.waitList, w.producer ≠ p) ∧
        l.offer p f = { l with waitList := l.waitList ++ [{ producer := p, frame := f }] }) := by
  by_cases h : l.queue.length < 12
  · simp [Line.offer, h]
  · by_cases hp : p = .host
    · simp [Line.offer, h, hp]; omega
    · by_cases hw : l.waitList.any (fun w => w.producer == p) = true
      · refine Or.inr (Or.inr (Or.inl ⟨by omega, hp, ?_, by simp [Line.offer, h, hp, hw]⟩))
        simpa using hw
      · refine Or.inr (Or.inr (Or.inr ⟨by omega, hp, ?_, by simp [Line.offer, h, hp, hw]⟩))
        simpa using hw

theorem Line.offer_sameWire (p : Producer) (f : Frame) (l : Line) : Line.SameWire l (l.offer p f) := by
  rcases Line.offer_cases p f l with ⟨_, h⟩ | ⟨_, _, h⟩ | ⟨_, _, _, h⟩ | ⟨_, _, _, h⟩ <;> rw [h]
  · exact Line.enqueue_sameWire p f l
  · exact Line.SameWire.refl l
  all_goals exact ⟨rfl, rfl, rfl, rfl, rfl, rfl, rfl, rfl, rfl, rfl⟩

/-- An offer keeps the queue sound (R14). -/
theorem Line.Sound.offer {l : Line} (h : l.Sound) (p : Producer) (f : Frame) : (l.offer p f).Sound := by
  rcases Line.offer_cases p f l with ⟨hl, e⟩ | ⟨_, _, e⟩ | ⟨_, _, hw, e⟩ | ⟨hl, _, _, e⟩ <;> rw [e]
  · refine ⟨?_, Line.enqueue_one h.one, h.fails, ?_, h.behind⟩
    · rw [Line.enqueue_queue_length]; omega
    · rcases h.waits with hw | hw
      · exact Or.inl hw
      · omega
  · exact h
  · refine ⟨h.len, h.one, h.fails, h.waits, ?_⟩
    intro w hwm
    simp only [List.mem_append, List.mem_singleton] at hwm
    rcases hwm with hwm | rfl
    · exact h.behind w hwm
    · exact hw
  · refine ⟨h.len, h.one, h.fails, Or.inr (Nat.le_antisymm h.len hl), ?_⟩
    intro w hwm
    obtain ⟨v, hv, hvp⟩ := h.behind w hwm
    exact ⟨v, by simp [hv], hvp⟩

/-! ## Filling freed slots -/

theorem bestWaiter_mem {l : List Waiter} {w : Waiter} (h : bestWaiter l = some w) : w ∈ l := by
  induction l generalizing w with
  | nil => simp [bestWaiter] at h
  | cons a rest ih =>
    unfold bestWaiter at h
    split at h
    · simp_all
    · next v hv =>
      split at h
      · simp only [Option.some.injEq] at h; subst h; simp [ih hv]
      · simp_all

theorem bestWaiter_none {l : List Waiter} (h : bestWaiter l = none) : l = [] := by
  cases l with
  | nil => rfl
  | cons a rest =>
    unfold bestWaiter at h
    split at h
    · simp at h
    · split at h <;> simp at h

/-- What promoting a backlog keeps, and that its producer's backlog then stands behind its frame on the wait list. -/
structure Line.Promoted (p : Producer) (a c : Line) : Prop where
  wire : Line.SameWire a c
  len : a.queue.length ≤ 12 → c.queue.length ≤ 12
  one : (a.queue.filter (·.inEmission)).length ≤ 1 → (c.queue.filter (·.inEmission)).length ≤ 1
  grow : a.queue.length ≤ c.queue.length
  total : c.waitList.length + c.backlog.length ≤ a.waitList.length + a.backlog.length
  waits : a.queue.length ≤ 12 → a.waitList = [] ∨ a.queue.length = 12 → c.waitList = [] ∨ c.queue.length = 12
  keeps : ∀ w ∈ a.waitList, w ∈ c.waitList
  others : ∀ w ∈ c.backlog, w ∈ a.backlog

theorem Line.Promoted.refl (p : Producer) (l : Line) : Line.Promoted p l l :=
  ⟨Line.SameWire.refl l, id, id, Nat.le_refl _, Nat.le_refl _, fun _ => id, fun _ h => h, fun _ h => h⟩

theorem Line.Promoted.trans {p : Producer} {a c e : Line} (h : Line.Promoted p a c) (k : Line.Promoted p c e) :
    Line.Promoted p a e :=
  ⟨h.wire.trans k.wire, fun x => k.len (h.len x), fun x => k.one (h.one x), Nat.le_trans h.grow k.grow,
    Nat.le_trans k.total h.total, fun x y => k.waits (h.len x) (h.waits x y), fun w x => k.keeps w (h.keeps w x),
    fun w x => h.others w (k.others w x)⟩

/-- One frame of a backlog is offered. -/
theorem Line.promoteOne {p : Producer} {l : Line} {w : Waiter} (hw : w ∈ l.backlog)
    (hno : ∀ v ∈ l.waitList, v.producer ≠ p) :
    Line.Promoted p l ({ l with backlog := l.backlog.erase w }.offer p w.frame) := by
  have hlen : (l.backlog.erase w).length + 1 = l.backlog.length := by
    have := List.length_erase_of_mem hw
    have : 0 < l.backlog.length := List.length_pos_of_mem hw
    omega
  have hwire : Line.SameWire l { l with backlog := l.backlog.erase w } :=
    ⟨rfl, rfl, rfl, rfl, rfl, rfl, rfl, rfl, rfl, rfl⟩
  have hsub : ∀ x ∈ l.backlog.erase w, x ∈ l.backlog := fun x hx => List.mem_of_mem_erase hx
  rcases Line.offer_cases p w.frame { l with backlog := l.backlog.erase w } with
    ⟨hq, e⟩ | ⟨_, _, e⟩ | ⟨_, _, ⟨v, hv, hvp⟩, e⟩ | ⟨hq, _, _, e⟩
  · rw [e]
    refine ⟨hwire.trans (Line.enqueue_sameWire _ _ _), ?_, fun x => Line.enqueue_one x, ?_, ?_, ?_, fun _ h => h, ?_⟩
    · intro _; rw [Line.enqueue_queue_length]; simp only at hq ⊢; omega
    · rw [Line.enqueue_queue_length]; simp only; omega
    · simp only [Line.enqueue]; omega
    · intro _ x
      simp only at hq
      rcases x with x | x
      · exact Or.inl x
      · omega
    · exact hsub
  · rw [e]
    exact ⟨hwire, id, id, Nat.le_refl _, by simp only; omega, fun _ => id, fun _ h => h, hsub⟩
  · exact absurd hvp (hno v hv)
  · rw [e]
    refine ⟨hwire.trans ⟨rfl, rfl, rfl, rfl, rfl, rfl, rfl, rfl, rfl, rfl⟩, id, id, Nat.le_refl _, ?_, ?_, ?_, hsub⟩
    · simp only [List.length_append, List.length_singleton]; omega
    · intro h12 _
      exact Or.inr (Nat.le_antisymm h12 hq)
    · intro v hv; simp [hv]

/-- Promoting a backlog keeps the laws of the queue and of the wait list. -/
theorem Line.promote_promoted (p : Producer) : ∀ (n : Nat) (l : Line), Line.Promoted p l (Line.promote p n l) := by
  intro n
  induction n with
  | zero => intro l; exact Line.Promoted.refl p l
  | succ n ih =>
    intro l
    unfold Line.promote
    split
    · exact Line.Promoted.refl p l
    · next hno =>
      split
      · exact Line.Promoted.refl p l
      · next w hw =>
        refine (Line.promoteOne (List.mem_of_find?_eq_some hw) ?_).trans (ih _)
        simpa using hno

/-- With enough turns, no frame of the producer is left in the backlog unless one stands on the wait list (R14). -/
theorem Line.promote_behind (p : Producer) : ∀ (n : Nat) (l : Line), l.backlog.length ≤ n →
    (∃ v ∈ (Line.promote p n l).waitList, v.producer = p) ∨ ∀ w ∈ (Line.promote p n l).backlog, w.producer ≠ p := by
  intro n
  induction n with
  | zero =>
    intro l h
    have : l.backlog = [] := List.length_eq_zero_iff.mp (by omega)
    exact Or.inr (by simp [Line.promote, this])
  | succ n ih =>
    intro l h
    unfold Line.promote
    split
    · next hyes => exact Or.inl (by simpa using hyes)
    · next hno =>
      split
      · next hnone => exact Or.inr (by simpa using hnone)
      · next w hw =>
        have hmem : w ∈ l.backlog := List.mem_of_find?_eq_some hw
        have hlen : (l.backlog.erase w).length + 1 = l.backlog.length := by
          have := List.length_erase_of_mem hmem
          have : 0 < l.backlog.length := List.length_pos_of_mem hmem
          omega
        have hprod : w.producer = p := by simpa using List.find?_some hw
        rcases Line.offer_cases p w.frame { l with backlog := l.backlog.erase w } with
          ⟨_, e⟩ | ⟨_, _, e⟩ | ⟨_, _, ⟨v, hv, hvp⟩, _⟩ | ⟨_, _, _, e⟩
        · rw [e]; exact ih _ (by simp only [Line.enqueue]; omega)
        · rw [e]; exact ih _ (by simp only; omega)
        · exact absurd hvp ((by simpa using hno : ∀ x ∈ l.waitList, ¬x.producer = p) v hv)
        · rw [e]; exact ih _ (by simp only; omega)

/-- Promoting a backlog adds nothing to a backlog. -/
theorem Line.promote_backlog_le (p : Producer) : ∀ (n : Nat) (l : Line),
    (Line.promote p n l).backlog.length ≤ l.backlog.length ∧ ∀ w ∈ (Line.promote p n l).backlog, w ∈ l.backlog := by
  intro n
  induction n with
  | zero => intro l; exact ⟨Nat.le_refl _, fun _ h => h⟩
  | succ n ih =>
    intro l
    unfold Line.promote
    split
    · exact ⟨Nat.le_refl _, fun _ h => h⟩
    · next hno =>
      split
      · exact ⟨Nat.le_refl _, fun _ h => h⟩
      · next w hw =>
        have hsub : ∀ x ∈ l.backlog.erase w, x ∈ l.backlog := fun x hx => List.mem_of_mem_erase hx
        have hle : (l.backlog.erase w).length ≤ l.backlog.length := List.length_erase_le
        rcases Line.offer_cases p w.frame { l with backlog := l.backlog.erase w } with
          ⟨_, e⟩ | ⟨_, _, e⟩ | ⟨_, _, ⟨v, hv, hvp⟩, _⟩ | ⟨_, _, _, e⟩
        · rw [e]; obtain ⟨h1, h2⟩ := ih ({ l with backlog := l.backlog.erase w }.enqueue p w.frame)
          exact ⟨Nat.le_trans h1 hle, fun x hx => hsub x (h2 x hx)⟩
        · rw [e]; obtain ⟨h1, h2⟩ := ih { l with backlog := l.backlog.erase w }
          exact ⟨Nat.le_trans h1 hle, fun x hx => hsub x (h2 x hx)⟩
        · exact absurd hvp ((by simpa using hno : ∀ x ∈ l.waitList, ¬x.producer = p) v hv)
        · rw [e]
          obtain ⟨h1, h2⟩ := ih { l with
            backlog := l.backlog.erase w, waitList := l.waitList ++ [{ producer := p, frame := w.frame }] }
          exact ⟨Nat.le_trans h1 hle, fun x hx => hsub x (h2 x hx)⟩

/-- Every backlog but perhaps one producer's stands behind a frame on the wait list. -/
def Line.behindBut (p : Option Producer) (l : Line) : Prop :=
  ∀ w ∈ l.backlog, some w.producer ≠ p → ∃ v ∈ l.waitList, v.producer = w.producer

/-- What filling the freed slots keeps. -/
structure Line.Filled (p : Option Producer) (a c : Line) : Prop where
  wire : Line.SameWire a c
  len : a.queue.length ≤ 12 → c.queue.length ≤ 12
  one : (a.queue.filter (·.inEmission)).length ≤ 1 → (c.queue.filter (·.inEmission)).length ≤ 1
  behind : a.behindBut p → c.behindBut p

theorem Line.Filled.refl (p : Option Producer) (l : Line) : Line.Filled p l l :=
  ⟨Line.SameWire.refl l, id, id, id⟩

theorem Line.Filled.trans {p : Option Producer} {a c e : Line} (h : Line.Filled p a c) (k : Line.Filled p c e) :
    Line.Filled p a e :=
  ⟨h.wire.trans k.wire, fun x => k.len (h.len x), fun x => k.one (h.one x), fun x => k.behind (h.behind x)⟩

/-- One freed slot goes to a waiting frame, and its producer's backlog moves up (R14). -/
theorem Line.fillOne {p : Option Producer} {l : Line} {w : Waiter} (hw : w ∈ l.waitList)
    (hq : l.queue.length < 12) :
    Line.Filled p l (Line.promote w.producer l.backlog.length
      ({ l with waitList := l.waitList.erase w }.enqueue w.producer w.frame)) := by
  have hp := Line.promote_promoted w.producer l.backlog.length
    ({ l with waitList := l.waitList.erase w }.enqueue w.producer w.frame)
  have hb := Line.promote_behind w.producer l.backlog.length
    ({ l with waitList := l.waitList.erase w }.enqueue w.producer w.frame) (by simp [Line.enqueue])
  have hw0 : Line.SameWire l ({ l with waitList := l.waitList.erase w }.enqueue w.producer w.frame) :=
    ⟨rfl, rfl, rfl, rfl, rfl, rfl, rfl, rfl, rfl, rfl⟩
  refine ⟨hw0.trans hp.wire, ?_, ?_, ?_⟩
  · intro _; exact hp.len (by rw [Line.enqueue_queue_length]; simp only; omega)
  · intro h; exact hp.one (Line.enqueue_one h)
  · intro h x hx hxp
    have hxb : x ∈ l.backlog := hp.others x hx
    by_cases hwx : x.producer = w.producer
    · rcases hb with ⟨v, hv, hvp⟩ | hb
      · exact ⟨v, hv, hvp.trans hwx.symm⟩
      · exact absurd hwx (hb x hx)
    · obtain ⟨v, hv, hvp⟩ := h x hxb hxp
      refine ⟨v, hp.keeps v ?_, hvp⟩
      simp only [Line.enqueue]
      refine (List.mem_erase_of_ne ?_).mpr hv
      intro e; subst e; exact hwx hvp.symm

theorem Line.refill_filled (p : Option Producer) : ∀ (n : Nat) (l : Line), Line.Filled p l (Line.refill n l) := by
  intro n
  induction n with
  | zero => intro l; exact Line.Filled.refl p l
  | succ n ih =>
    intro l
    unfold Line.refill
    split
    · next hq =>
      split
      · exact Line.Filled.refl p l
      · next w hw => exact (Line.fillOne (bestWaiter_mem hw) hq).trans (ih _)
    · exact Line.Filled.refl p l

/-- With enough turns, the wait list is empty or the queue is full (R14). -/
theorem Line.refill_waits : ∀ (n : Nat) (l : Line), l.queue.length ≤ 12 → l.waitList.length + l.backlog.length ≤ n →
    (Line.refill n l).waitList = [] ∨ (Line.refill n l).queue.length = 12 := by
  intro n
  induction n with
  | zero =>
    intro l _ h
    exact Or.inl (List.length_eq_zero_iff.mp (by simp only [Line.refill]; omega))
  | succ n ih =>
    intro l h12 h
    unfold Line.refill
    split
    · next hq =>
      split
      · next hn => exact Or.inl (bestWaiter_none hn)
      · next w hw =>
        have hmem := bestWaiter_mem hw
        have hp := Line.promote_promoted w.producer l.backlog.length
          ({ l with waitList := l.waitList.erase w }.enqueue w.producer w.frame)
        have hlen : (l.waitList.erase w).length + 1 = l.waitList.length := by
          have := List.length_erase_of_mem hmem
          have : 0 < l.waitList.length := List.length_pos_of_mem hmem
          omega
        apply ih
        · exact hp.len (by rw [Line.enqueue_queue_length]; simp only; omega)
        · have := hp.total
          simp only [Line.enqueue] at this
          simp only [Line.enqueue]
          omega
    · next hq => exact Or.inr (by omega)

theorem Line.settle_filled (p : Option Producer) (l : Line) : Line.Filled p l l.settle := Line.refill_filled p _ l

theorem Line.settle_waits (l : Line) (h : l.queue.length ≤ 12) :
    l.settle.waitList = [] ∨ l.settle.queue.length = 12 := Line.refill_waits _ l h (Nat.le_refl _)

/-- Filling the freed slots makes a queue sound that may have slots free (R14). -/
theorem Line.settle_sound {l : Line} (hlen : l.queue.length ≤ 12) (hone : (l.queue.filter (·.inEmission)).length ≤ 1)
    (hf : l.failures ≤ 7) (hb : l.behindBut none) : l.settle.Sound := by
  have k := Line.settle_filled none l
  exact ⟨k.len hlen, k.one hone, by rw [k.wire.failures]; exact hf, Line.settle_waits l hlen,
    fun w hw => k.behind hb w hw (by simp)⟩

/-! ## Withdrawing and completing -/

/-- A filtered queue with entries that keep their state has no more in emission. -/
theorem filter_map_one {q : List OutEntry} {t : OutEntry → Bool} {g : OutEntry → OutEntry}
    (hg : ∀ e, (g e).inEmission = e.inEmission) (h : (q.filter (·.inEmission)).length ≤ 1) :
    (((q.filter t).map g).filter (·.inEmission)).length ≤ 1 := by
  rw [List.filter_map, List.length_map]
  have : ((fun x : OutEntry => x.inEmission) ∘ g) = (fun x => x.inEmission) := by funext e; exact hg e
  rw [this, List.filter_filter]
  refine Nat.le_trans ?_ h
  have hs : (q.filter (fun a => a.inEmission && t a)).Sublist (q.filter (·.inEmission)) := by
    have : q.filter (fun a => a.inEmission && t a) = (q.filter (·.inEmission)).filter t := by
      rw [List.filter_filter]; congr 1; funext a; exact Bool.and_comm _ _
    rw [this]; exact List.filter_sublist
  exact hs.length_le

/-- The line with some of a producer's frames taken out, before the freed slots are filled. -/
def Line.struck (p : Producer) (sel : Frame → Bool) (again : Bool) (l : Line) : Line :=
  { l with
    queue := (l.queue.filter (fun e => !(e.isOf p sel && !e.inEmission))).map
      (fun e => if e.isOf p sel then { e with again := e.again || again } else e)
    waitList := l.waitList.filter (fun w => !w.isOf p sel)
    backlog := l.backlog.filter (fun w => !w.isOf p sel) }

theorem Line.withdraw_eq (p : Producer) (sel : Frame → Bool) (again : Bool) (l : Line) :
    l.withdraw p sel again = Line.promote p l.backlog.length (l.struck p sel again).settle := rfl

theorem Line.refill_backlog_le : ∀ (n : Nat) (l : Line), (Line.refill n l).backlog.length ≤ l.backlog.length ∧
    ∀ w ∈ (Line.refill n l).backlog, w ∈ l.backlog := by
  intro n
  induction n with
  | zero => intro l; exact ⟨Nat.le_refl _, fun _ h => h⟩
  | succ n ih =>
    intro l
    unfold Line.refill
    split
    · split
      · exact ⟨Nat.le_refl _, fun _ h => h⟩
      · next w hw =>
        have hp := Line.promote_backlog_le w.producer l.backlog.length
          ({ l with waitList := l.waitList.erase w }.enqueue w.producer w.frame)
        obtain ⟨h1, h2⟩ := ih (Line.promote w.producer l.backlog.length
          ({ l with waitList := l.waitList.erase w }.enqueue w.producer w.frame))
        exact ⟨Nat.le_trans h1 hp.1, fun x hx => hp.2 x (h2 x hx)⟩
    · exact ⟨Nat.le_refl _, fun _ h => h⟩

/-- A withdrawal keeps the queue sound (R14, R15). -/
theorem Line.Sound.withdraw {l : Line} (h : l.Sound) (p : Producer) (sel : Frame → Bool) (again : Bool) :
    (l.withdraw p sel again).Sound := by
  have hq : (l.struck p sel again).queue.length ≤ 12 := by
    simp only [Line.struck, List.length_map]
    exact Nat.le_trans (List.length_filter_le _ _) h.len
  have hone : ((l.struck p sel again).queue.filter (·.inEmission)).length ≤ 1 :=
    filter_map_one (by intro e; split <;> rfl) h.one
  have hb : (l.struck p sel again).behindBut (some p) := by
    intro w hw hne
    simp only [Line.struck, List.mem_filter] at hw
    obtain ⟨v, hv, hvp⟩ := h.behind w hw.1
    refine ⟨v, ?_, hvp⟩
    simp only [Line.struck, List.mem_filter]
    refine ⟨hv, ?_⟩
    have hne' : w.producer ≠ p := fun e => hne (by rw [e])
    have : (v.producer == p) = false := by simpa [hvp] using hne'
    simp [Waiter.isOf, this]
  have k := Line.settle_filled (some p) (l.struck p sel again)
  have kw := Line.settle_waits (l.struck p sel again) hq
  have m := Line.promote_promoted p l.backlog.length (l.struck p sel again).settle
  have hlen : (l.struck p sel again).settle.backlog.length ≤ l.backlog.length :=
    Nat.le_trans (Line.refill_backlog_le _ _).1 (List.length_filter_le _ _)
  have mb := Line.promote_behind p l.backlog.length (l.struck p sel again).settle hlen
  rw [Line.withdraw_eq]
  refine ⟨m.len (k.len hq), m.one (k.one hone), ?_, m.waits (k.len hq) kw, ?_⟩
  · rw [m.wire.failures, k.wire.failures]; exact h.fails
  · intro w hw
    by_cases hp : w.producer = p
    · rcases mb with ⟨v, hv, hvp⟩ | mb
      · exact ⟨v, hv, hvp.trans hp.symm⟩
      · exact absurd hp (mb w hw)
    · obtain ⟨v, hv, hvp⟩ := k.behind hb w (m.others w hw) (by simpa using hp)
      exact ⟨v, m.keeps v hv, hvp⟩

/-- A withdrawal moves nothing but the queue, the wait list and the backlogs (R15). -/
theorem Line.withdraw_sameWire (p : Producer) (sel : Frame → Bool) (again : Bool) (l : Line) :
    Line.SameWire l (l.withdraw p sel again) := by
  rw [Line.withdraw_eq]
  have h0 : Line.SameWire l (l.struck p sel again) := ⟨rfl, rfl, rfl, rfl, rfl, rfl, rfl, rfl, rfl, rfl⟩
  exact (h0.trans (Line.settle_filled none _).wire).trans (Line.promote_promoted p _ _).wire

/-- An attempt that did not complete keeps the queue sound (R13). -/
theorem Line.Sound.backToWaiting {l : Line} (h : l.Sound) : l.backToWaiting.Sound := by
  refine ⟨by simpa [Line.backToWaiting] using h.len, ?_, h.fails, ?_, h.behind⟩
  · have : ((l.queue.map (fun e => { e with inEmission := false, again := false })).filter (·.inEmission)) = [] := by
      rw [List.filter_map]; simp [Function.comp_def]
    simp [Line.backToWaiting, this]
  · rcases h.waits with hw | hw
    · exact Or.inl hw
    · exact Or.inr (by simpa [Line.backToWaiting] using hw)

/-- A completed entry's leaving keeps the queue sound (R14, R19). -/
theorem Line.Sound.dropEmitted {l : Line} (h : l.Sound) : l.dropEmitted.Sound := by
  refine Line.settle_sound ?_ ?_ h.fails (fun w hw _ => h.behind w hw)
  · exact Nat.le_trans (List.length_filter_le _ _) h.len
  · have : (l.queue.filter (fun e => !e.inEmission)).filter (·.inEmission) = [] := by
      rw [List.filter_filter]; simp
    simp [this]

/-- The emptied queue is sound (R22, R23). -/
theorem Line.Sound.emptied {l : Line} (h : l.Sound) : l.emptied.Sound :=
  ⟨by simp [Line.emptied], by simp [Line.emptied], h.fails, Or.inl rfl, by simp [Line.emptied]⟩

/-! ## What a withdrawal leaves none of -/

/-- No frame of a producer that a test picks is WAITING, on the wait list or in the backlog. -/
structure Line.Clear (p : Producer) (sel : Frame → Bool) (l : Line) : Prop where
  queue : ∀ e ∈ l.queue, e.isOf p sel = true → e.inEmission = true
  waitList : ∀ w ∈ l.waitList, w.isOf p sel = false
  backlog : ∀ w ∈ l.backlog, w.isOf p sel = false

theorem Line.clear_iff (p : Producer) (sel : Frame → Bool) (l : Line) :
    l.heldWaiting p sel = false ↔ l.Clear p sel := by
  simp only [Line.heldWaiting, Line.waits, Bool.or_eq_false_iff, List.any_eq_false, Bool.and_eq_true,
    Bool.not_eq_true', not_and, Bool.not_eq_false, Bool.not_eq_true]
  exact ⟨fun ⟨h1, h2, h3⟩ => ⟨h1, h2, h3⟩, fun ⟨h1, h2, h3⟩ => ⟨h1, h2, h3⟩⟩

theorem Line.Clear.enqueue {p q : Producer} {sel : Frame → Bool} {l : Line} (h : l.Clear p sel) {f : Frame}
    (hf : Waiter.isOf p sel { producer := q, frame := f } = false) : (l.enqueue q f).Clear p sel := by
  refine ⟨?_, h.waitList, h.backlog⟩
  intro e he hs
  have := (insertEntry_perm _ l.queue).mem_iff.mp he
  simp only [List.mem_cons] at this
  rcases this with rfl | he
  · simp only [OutEntry.isOf, Waiter.isOf] at hs hf
    rw [hs] at hf
    exact absurd hf (by simp)
  · exact h.queue e he hs

theorem Line.Clear.offer {p q : Producer} {sel : Frame → Bool} {l : Line} (h : l.Clear p sel) {f : Frame}
    (hf : Waiter.isOf p sel { producer := q, frame := f } = false) : (l.offer q f).Clear p sel := by
  rcases Line.offer_cases q f l with ⟨_, e⟩ | ⟨_, _, e⟩ | ⟨_, _, _, e⟩ | ⟨_, _, _, e⟩ <;> rw [e]
  · exact h.enqueue hf
  · exact h
  · refine ⟨h.queue, h.waitList, ?_⟩
    intro w hw
    simp only [List.mem_append, List.mem_singleton] at hw
    rcases hw with hw | rfl
    · exact h.backlog w hw
    · exact hf
  · refine ⟨h.queue, ?_, h.backlog⟩
    intro w hw
    simp only [List.mem_append, List.mem_singleton] at hw
    rcases hw with hw | rfl
    · exact h.waitList w hw
    · exact hf

theorem Line.Clear.promote {p : Producer} {sel : Frame → Bool} (q : Producer) : ∀ (n : Nat) {l : Line},
    l.Clear p sel → (Line.promote q n l).Clear p sel := by
  intro n
  induction n with
  | zero => intro l h; exact h
  | succ n ih =>
    intro l h
    unfold Line.promote
    split
    · exact h
    · split
      · exact h
      · next w hw =>
        have hmem : w ∈ l.backlog := List.mem_of_find?_eq_some hw
        have hprod : w.producer = q := by simpa using List.find?_some hw
        have h1 : Line.Clear p sel { l with backlog := l.backlog.erase w } :=
          ⟨h.queue, h.waitList, fun x hx => h.backlog x (List.mem_of_mem_erase hx)⟩
        exact ih (h1.offer (by subst hprod; exact h.backlog w hmem))

theorem Line.Clear.refill {p : Producer} {sel : Frame → Bool} : ∀ (n : Nat) {l : Line},
    l.Clear p sel → (Line.refill n l).Clear p sel := by
  intro n
  induction n with
  | zero => intro l h; exact h
  | succ n ih =>
    intro l h
    unfold Line.refill
    split
    · split
      · exact h
      · next w hw =>
        have hmem := bestWaiter_mem hw
        have h1 : Line.Clear p sel { l with waitList := l.waitList.erase w } :=
          ⟨h.queue, fun x hx => h.waitList x (List.mem_of_mem_erase hx), h.backlog⟩
        exact ih ((h1.enqueue (h.waitList w hmem)).promote w.producer _)
    · exact h

/-- After a withdrawal no frame that it picks waits any more (R15). -/
theorem Line.withdraw_clear (p : Producer) (sel : Frame → Bool) (again : Bool) (l : Line) :
    (l.withdraw p sel again).heldWaiting p sel = false := by
  rw [Line.clear_iff, Line.withdraw_eq]
  refine Line.Clear.promote p _ (Line.Clear.refill _ ⟨?_, ?_, ?_⟩)
  · intro e he hs
    simp only [Line.struck, List.mem_map, List.mem_filter] at he
    obtain ⟨x, ⟨_, hx⟩, rfl⟩ := he
    have hsx : x.isOf p sel = true := by
      by_cases hc : x.isOf p sel = true
      · exact hc
      · simp only [hc] at hs
        exact absurd hs hc
    simp only [hsx, if_true]
    simpa [hsx] using hx
  · intro w hw
    simp only [Line.struck, List.mem_filter] at hw
    simpa using hw.2
  · intro w hw
    simp only [Line.struck, List.mem_filter] at hw
    simpa using hw.2

/-- A frame offered by a block waits or is held at once: in the queue, on the wait list or in the backlog (R14). -/
theorem Line.offer_held (p : Producer) (f : Frame) (l : Line) (hp : p ≠ .host) (sel : Frame → Bool)
    (hs : sel f = true) : (l.offer p f).heldWaiting p sel = true := by
  have hw : Waiter.isOf p sel { producer := p, frame := f } = true := by simp [Waiter.isOf, hs]
  rcases Line.offer_cases p f l with ⟨_, e⟩ | ⟨_, h, _⟩ | ⟨_, _, _, e⟩ | ⟨_, _, _, e⟩
  · rw [e]
    simp only [Line.heldWaiting, Bool.or_eq_true, List.any_eq_true]
    refine Or.inl ⟨{ frame := f, producer := p, order := l.nextOrder, inEmission := false, again := false }, ?_, ?_⟩
    · exact (insertEntry_perm _ l.queue).mem_iff.mpr (by simp)
    · simp [OutEntry.isOf, hs]
  · exact absurd h hp
  · rw [e]
    simp only [Line.heldWaiting, Line.waits, Bool.or_eq_true, List.any_eq_true]
    exact Or.inr (Or.inr ⟨{ producer := p, frame := f }, by simp, hw⟩)
  · rw [e]
    simp only [Line.heldWaiting, Line.waits, Bool.or_eq_true, List.any_eq_true]
    exact Or.inr (Or.inl ⟨{ producer := p, frame := f }, by simp, hw⟩)

end Sys2Proof.Machine
end

