-- ==== Sys2Proof/Laws/State.lean ====
section
/-! SUPPORT. What each update of a block's state does to each field: one lemma a field, so that no later proof unfolds
a record update. -/

namespace Sys2Proof.Machine

@[simp] theorem Blocks.onLine_now (f : Line → Line) (b : Blocks) : (b.onLine f).now = b.now := rfl
@[simp] theorem Blocks.onLine_selLow (f : Line → Line) (b : Blocks) : (b.onLine f).selLow = b.selLow := rfl
@[simp] theorem Blocks.onLine_draws (f : Line → Line) (b : Blocks) : (b.onLine f).draws = b.draws := rfl
@[simp] theorem Blocks.onLine_stop (f : Line → Line) (b : Blocks) : (b.onLine f).stop = b.stop := rfl
@[simp] theorem Blocks.onLine_line (f : Line → Line) (b : Blocks) : (b.onLine f).line = f b.line := rfl
@[simp] theorem Blocks.onLine_asking (f : Line → Line) (b : Blocks) : (b.onLine f).asking = b.asking := rfl
@[simp] theorem Blocks.onLine_pres (f : Line → Line) (b : Blocks) : (b.onLine f).pres = b.pres := rfl
@[simp] theorem Blocks.onLine_planner (f : Line → Line) (b : Blocks) : (b.onLine f).planner = b.planner := rfl
@[simp] theorem Blocks.onLine_saw (f : Line → Line) (b : Blocks) : (b.onLine f).saw = b.saw := rfl
@[simp] theorem Blocks.onLine_meas (f : Line → Line) (b : Blocks) : (b.onLine f).meas = b.meas := rfl
@[simp] theorem Blocks.onLine_plant (f : Line → Line) (b : Blocks) : (b.onLine f).plant = b.plant := rfl
@[simp] theorem Blocks.onLine_cost (f : Line → Line) (b : Blocks) : (b.onLine f).cost = b.cost := rfl
@[simp] theorem Blocks.onLine_host (f : Line → Line) (b : Blocks) : (b.onLine f).host = b.host := rfl

@[simp] theorem Blocks.onAsking_now (f : Asking → Asking) (b : Blocks) : (b.onAsking f).now = b.now := rfl
@[simp] theorem Blocks.onAsking_selLow (f : Asking → Asking) (b : Blocks) : (b.onAsking f).selLow = b.selLow := rfl
@[simp] theorem Blocks.onAsking_draws (f : Asking → Asking) (b : Blocks) : (b.onAsking f).draws = b.draws := rfl
@[simp] theorem Blocks.onAsking_stop (f : Asking → Asking) (b : Blocks) : (b.onAsking f).stop = b.stop := rfl
@[simp] theorem Blocks.onAsking_line (f : Asking → Asking) (b : Blocks) : (b.onAsking f).line = b.line := rfl
@[simp] theorem Blocks.onAsking_asking (f : Asking → Asking) (b : Blocks) : (b.onAsking f).asking = f b.asking := rfl
@[simp] theorem Blocks.onAsking_pres (f : Asking → Asking) (b : Blocks) : (b.onAsking f).pres = b.pres := rfl
@[simp] theorem Blocks.onAsking_planner (f : Asking → Asking) (b : Blocks) : (b.onAsking f).planner = b.planner := rfl
@[simp] theorem Blocks.onAsking_saw (f : Asking → Asking) (b : Blocks) : (b.onAsking f).saw = b.saw := rfl
@[simp] theorem Blocks.onAsking_meas (f : Asking → Asking) (b : Blocks) : (b.onAsking f).meas = b.meas := rfl
@[simp] theorem Blocks.onAsking_plant (f : Asking → Asking) (b : Blocks) : (b.onAsking f).plant = b.plant := rfl
@[simp] theorem Blocks.onAsking_cost (f : Asking → Asking) (b : Blocks) : (b.onAsking f).cost = b.cost := rfl
@[simp] theorem Blocks.onAsking_host (f : Asking → Asking) (b : Blocks) : (b.onAsking f).host = b.host := rfl

@[simp] theorem Blocks.onPres_now (f : Presence → Presence) (b : Blocks) : (b.onPres f).now = b.now := rfl
@[simp] theorem Blocks.onPres_selLow (f : Presence → Presence) (b : Blocks) : (b.onPres f).selLow = b.selLow := rfl
@[simp] theorem Blocks.onPres_draws (f : Presence → Presence) (b : Blocks) : (b.onPres f).draws = b.draws := rfl
@[simp] theorem Blocks.onPres_stop (f : Presence → Presence) (b : Blocks) : (b.onPres f).stop = b.stop := rfl
@[simp] theorem Blocks.onPres_line (f : Presence → Presence) (b : Blocks) : (b.onPres f).line = b.line := rfl
@[simp] theorem Blocks.onPres_asking (f : Presence → Presence) (b : Blocks) : (b.onPres f).asking = b.asking := rfl
@[simp] theorem Blocks.onPres_pres (f : Presence → Presence) (b : Blocks) : (b.onPres f).pres = f b.pres := rfl
@[simp] theorem Blocks.onPres_planner (f : Presence → Presence) (b : Blocks) : (b.onPres f).planner = b.planner := rfl
@[simp] theorem Blocks.onPres_saw (f : Presence → Presence) (b : Blocks) : (b.onPres f).saw = b.saw := rfl
@[simp] theorem Blocks.onPres_meas (f : Presence → Presence) (b : Blocks) : (b.onPres f).meas = b.meas := rfl
@[simp] theorem Blocks.onPres_plant (f : Presence → Presence) (b : Blocks) : (b.onPres f).plant = b.plant := rfl
@[simp] theorem Blocks.onPres_cost (f : Presence → Presence) (b : Blocks) : (b.onPres f).cost = b.cost := rfl
@[simp] theorem Blocks.onPres_host (f : Presence → Presence) (b : Blocks) : (b.onPres f).host = b.host := rfl

@[simp] theorem Blocks.onPlanner_now (f : Planner → Planner) (b : Blocks) : (b.onPlanner f).now = b.now := rfl
@[simp] theorem Blocks.onPlanner_selLow (f : Planner → Planner) (b : Blocks) : (b.onPlanner f).selLow = b.selLow := rfl
@[simp] theorem Blocks.onPlanner_draws (f : Planner → Planner) (b : Blocks) : (b.onPlanner f).draws = b.draws := rfl
@[simp] theorem Blocks.onPlanner_stop (f : Planner → Planner) (b : Blocks) : (b.onPlanner f).stop = b.stop := rfl
@[simp] theorem Blocks.onPlanner_line (f : Planner → Planner) (b : Blocks) : (b.onPlanner f).line = b.line := rfl
@[simp] theorem Blocks.onPlanner_asking (f : Planner → Planner) (b : Blocks) : (b.onPlanner f).asking = b.asking := rfl
@[simp] theorem Blocks.onPlanner_pres (f : Planner → Planner) (b : Blocks) : (b.onPlanner f).pres = b.pres := rfl
@[simp] theorem Blocks.onPlanner_planner (f : Planner → Planner) (b : Blocks) : (b.onPlanner f).planner = f b.planner := rfl
@[simp] theorem Blocks.onPlanner_saw (f : Planner → Planner) (b : Blocks) : (b.onPlanner f).saw = b.saw := rfl
@[simp] theorem Blocks.onPlanner_meas (f : Planner → Planner) (b : Blocks) : (b.onPlanner f).meas = b.meas := rfl
@[simp] theorem Blocks.onPlanner_plant (f : Planner → Planner) (b : Blocks) : (b.onPlanner f).plant = b.plant := rfl
@[simp] theorem Blocks.onPlanner_cost (f : Planner → Planner) (b : Blocks) : (b.onPlanner f).cost = b.cost := rfl
@[simp] theorem Blocks.onPlanner_host (f : Planner → Planner) (b : Blocks) : (b.onPlanner f).host = b.host := rfl

@[simp] theorem Blocks.onSaw_now (f : Saw → Saw) (b : Blocks) : (b.onSaw f).now = b.now := rfl
@[simp] theorem Blocks.onSaw_selLow (f : Saw → Saw) (b : Blocks) : (b.onSaw f).selLow = b.selLow := rfl
@[simp] theorem Blocks.onSaw_draws (f : Saw → Saw) (b : Blocks) : (b.onSaw f).draws = b.draws := rfl
@[simp] theorem Blocks.onSaw_stop (f : Saw → Saw) (b : Blocks) : (b.onSaw f).stop = b.stop := rfl
@[simp] theorem Blocks.onSaw_line (f : Saw → Saw) (b : Blocks) : (b.onSaw f).line = b.line := rfl
@[simp] theorem Blocks.onSaw_asking (f : Saw → Saw) (b : Blocks) : (b.onSaw f).asking = b.asking := rfl
@[simp] theorem Blocks.onSaw_pres (f : Saw → Saw) (b : Blocks) : (b.onSaw f).pres = b.pres := rfl
@[simp] theorem Blocks.onSaw_planner (f : Saw → Saw) (b : Blocks) : (b.onSaw f).planner = b.planner := rfl
@[simp] theorem Blocks.onSaw_saw (f : Saw → Saw) (b : Blocks) : (b.onSaw f).saw = f b.saw := rfl
@[simp] theorem Blocks.onSaw_meas (f : Saw → Saw) (b : Blocks) : (b.onSaw f).meas = b.meas := rfl
@[simp] theorem Blocks.onSaw_plant (f : Saw → Saw) (b : Blocks) : (b.onSaw f).plant = b.plant := rfl
@[simp] theorem Blocks.onSaw_cost (f : Saw → Saw) (b : Blocks) : (b.onSaw f).cost = b.cost := rfl
@[simp] theorem Blocks.onSaw_host (f : Saw → Saw) (b : Blocks) : (b.onSaw f).host = b.host := rfl

@[simp] theorem Blocks.onMeas_now (f : Meas → Meas) (b : Blocks) : (b.onMeas f).now = b.now := rfl
@[simp] theorem Blocks.onMeas_selLow (f : Meas → Meas) (b : Blocks) : (b.onMeas f).selLow = b.selLow := rfl
@[simp] theorem Blocks.onMeas_draws (f : Meas → Meas) (b : Blocks) : (b.onMeas f).draws = b.draws := rfl
@[simp] theorem Blocks.onMeas_stop (f : Meas → Meas) (b : Blocks) : (b.onMeas f).stop = b.stop := rfl
@[simp] theorem Blocks.onMeas_line (f : Meas → Meas) (b : Blocks) : (b.onMeas f).line = b.line := rfl
@[simp] theorem Blocks.onMeas_asking (f : Meas → Meas) (b : Blocks) : (b.onMeas f).asking = b.asking := rfl
@[simp] theorem Blocks.onMeas_pres (f : Meas → Meas) (b : Blocks) : (b.onMeas f).pres = b.pres := rfl
@[simp] theorem Blocks.onMeas_planner (f : Meas → Meas) (b : Blocks) : (b.onMeas f).planner = b.planner := rfl
@[simp] theorem Blocks.onMeas_saw (f : Meas → Meas) (b : Blocks) : (b.onMeas f).saw = b.saw := rfl
@[simp] theorem Blocks.onMeas_meas (f : Meas → Meas) (b : Blocks) : (b.onMeas f).meas = f b.meas := rfl
@[simp] theorem Blocks.onMeas_plant (f : Meas → Meas) (b : Blocks) : (b.onMeas f).plant = b.plant := rfl
@[simp] theorem Blocks.onMeas_cost (f : Meas → Meas) (b : Blocks) : (b.onMeas f).cost = b.cost := rfl
@[simp] theorem Blocks.onMeas_host (f : Meas → Meas) (b : Blocks) : (b.onMeas f).host = b.host := rfl

@[simp] theorem Blocks.onPlant_now (f : PlantUnit → PlantUnit) (b : Blocks) : (b.onPlant f).now = b.now := rfl
@[simp] theorem Blocks.onPlant_selLow (f : PlantUnit → PlantUnit) (b : Blocks) : (b.onPlant f).selLow = b.selLow := rfl
@[simp] theorem Blocks.onPlant_draws (f : PlantUnit → PlantUnit) (b : Blocks) : (b.onPlant f).draws = b.draws := rfl
@[simp] theorem Blocks.onPlant_stop (f : PlantUnit → PlantUnit) (b : Blocks) : (b.onPlant f).stop = b.stop := rfl
@[simp] theorem Blocks.onPlant_line (f : PlantUnit → PlantUnit) (b : Blocks) : (b.onPlant f).line = b.line := rfl
@[simp] theorem Blocks.onPlant_asking (f : PlantUnit → PlantUnit) (b : Blocks) : (b.onPlant f).asking = b.asking := rfl
@[simp] theorem Blocks.onPlant_pres (f : PlantUnit → PlantUnit) (b : Blocks) : (b.onPlant f).pres = b.pres := rfl
@[simp] theorem Blocks.onPlant_planner (f : PlantUnit → PlantUnit) (b : Blocks) : (b.onPlant f).planner = b.planner := rfl
@[simp] theorem Blocks.onPlant_saw (f : PlantUnit → PlantUnit) (b : Blocks) : (b.onPlant f).saw = b.saw := rfl
@[simp] theorem Blocks.onPlant_meas (f : PlantUnit → PlantUnit) (b : Blocks) : (b.onPlant f).meas = b.meas := rfl
@[simp] theorem Blocks.onPlant_plant (f : PlantUnit → PlantUnit) (b : Blocks) : (b.onPlant f).plant = f b.plant := rfl
@[simp] theorem Blocks.onPlant_cost (f : PlantUnit → PlantUnit) (b : Blocks) : (b.onPlant f).cost = b.cost := rfl
@[simp] theorem Blocks.onPlant_host (f : PlantUnit → PlantUnit) (b : Blocks) : (b.onPlant f).host = b.host := rfl

@[simp] theorem Blocks.onCost_now (f : CostUnit → CostUnit) (b : Blocks) : (b.onCost f).now = b.now := rfl
@[simp] theorem Blocks.onCost_selLow (f : CostUnit → CostUnit) (b : Blocks) : (b.onCost f).selLow = b.selLow := rfl
@[simp] theorem Blocks.onCost_draws (f : CostUnit → CostUnit) (b : Blocks) : (b.onCost f).draws = b.draws := rfl
@[simp] theorem Blocks.onCost_stop (f : CostUnit → CostUnit) (b : Blocks) : (b.onCost f).stop = b.stop := rfl
@[simp] theorem Blocks.onCost_line (f : CostUnit → CostUnit) (b : Blocks) : (b.onCost f).line = b.line := rfl
@[simp] theorem Blocks.onCost_asking (f : CostUnit → CostUnit) (b : Blocks) : (b.onCost f).asking = b.asking := rfl
@[simp] theorem Blocks.onCost_pres (f : CostUnit → CostUnit) (b : Blocks) : (b.onCost f).pres = b.pres := rfl
@[simp] theorem Blocks.onCost_planner (f : CostUnit → CostUnit) (b : Blocks) : (b.onCost f).planner = b.planner := rfl
@[simp] theorem Blocks.onCost_saw (f : CostUnit → CostUnit) (b : Blocks) : (b.onCost f).saw = b.saw := rfl
@[simp] theorem Blocks.onCost_meas (f : CostUnit → CostUnit) (b : Blocks) : (b.onCost f).meas = b.meas := rfl
@[simp] theorem Blocks.onCost_plant (f : CostUnit → CostUnit) (b : Blocks) : (b.onCost f).plant = b.plant := rfl
@[simp] theorem Blocks.onCost_cost (f : CostUnit → CostUnit) (b : Blocks) : (b.onCost f).cost = f b.cost := rfl
@[simp] theorem Blocks.onCost_host (f : CostUnit → CostUnit) (b : Blocks) : (b.onCost f).host = b.host := rfl

@[simp] theorem Blocks.onHost_now (f : HostPort → HostPort) (b : Blocks) : (b.onHost f).now = b.now := rfl
@[simp] theorem Blocks.onHost_selLow (f : HostPort → HostPort) (b : Blocks) : (b.onHost f).selLow = b.selLow := rfl
@[simp] theorem Blocks.onHost_draws (f : HostPort → HostPort) (b : Blocks) : (b.onHost f).draws = b.draws := rfl
@[simp] theorem Blocks.onHost_stop (f : HostPort → HostPort) (b : Blocks) : (b.onHost f).stop = b.stop := rfl
@[simp] theorem Blocks.onHost_line (f : HostPort → HostPort) (b : Blocks) : (b.onHost f).line = b.line := rfl
@[simp] theorem Blocks.onHost_asking (f : HostPort → HostPort) (b : Blocks) : (b.onHost f).asking = b.asking := rfl
@[simp] theorem Blocks.onHost_pres (f : HostPort → HostPort) (b : Blocks) : (b.onHost f).pres = b.pres := rfl
@[simp] theorem Blocks.onHost_planner (f : HostPort → HostPort) (b : Blocks) : (b.onHost f).planner = b.planner := rfl
@[simp] theorem Blocks.onHost_saw (f : HostPort → HostPort) (b : Blocks) : (b.onHost f).saw = b.saw := rfl
@[simp] theorem Blocks.onHost_meas (f : HostPort → HostPort) (b : Blocks) : (b.onHost f).meas = b.meas := rfl
@[simp] theorem Blocks.onHost_plant (f : HostPort → HostPort) (b : Blocks) : (b.onHost f).plant = b.plant := rfl
@[simp] theorem Blocks.onHost_cost (f : HostPort → HostPort) (b : Blocks) : (b.onHost f).cost = b.cost := rfl
@[simp] theorem Blocks.onHost_host (f : HostPort → HostPort) (b : Blocks) : (b.onHost f).host = f b.host := rfl

@[simp] theorem Blocks.onPlan_now (f : Plan → Plan) (b : Blocks) : (b.onPlan f).now = b.now := rfl
@[simp] theorem Blocks.onPlan_selLow (f : Plan → Plan) (b : Blocks) : (b.onPlan f).selLow = b.selLow := rfl
@[simp] theorem Blocks.onPlan_draws (f : Plan → Plan) (b : Blocks) : (b.onPlan f).draws = b.draws := rfl
@[simp] theorem Blocks.onPlan_stop (f : Plan → Plan) (b : Blocks) : (b.onPlan f).stop = b.stop := rfl
@[simp] theorem Blocks.onPlan_line (f : Plan → Plan) (b : Blocks) : (b.onPlan f).line = b.line := rfl
@[simp] theorem Blocks.onPlan_asking (f : Plan → Plan) (b : Blocks) : (b.onPlan f).asking = b.asking := rfl
@[simp] theorem Blocks.onPlan_pres (f : Plan → Plan) (b : Blocks) : (b.onPlan f).pres = b.pres := rfl
@[simp] theorem Blocks.onPlan_planner (f : Plan → Plan) (b : Blocks) : (b.onPlan f).planner = { b.planner with plan := b.planner.plan.map f } := rfl
@[simp] theorem Blocks.onPlan_saw (f : Plan → Plan) (b : Blocks) : (b.onPlan f).saw = b.saw := rfl
@[simp] theorem Blocks.onPlan_meas (f : Plan → Plan) (b : Blocks) : (b.onPlan f).meas = b.meas := rfl
@[simp] theorem Blocks.onPlan_plant (f : Plan → Plan) (b : Blocks) : (b.onPlan f).plant = b.plant := rfl
@[simp] theorem Blocks.onPlan_cost (f : Plan → Plan) (b : Blocks) : (b.onPlan f).cost = b.cost := rfl
@[simp] theorem Blocks.onPlan_host (f : Plan → Plan) (b : Blocks) : (b.onPlan f).host = b.host := rfl

@[simp] theorem Blocks.setPlan_now (p : Option Plan) (b : Blocks) : (b.setPlan p).now = b.now := rfl
@[simp] theorem Blocks.setPlan_selLow (p : Option Plan) (b : Blocks) : (b.setPlan p).selLow = b.selLow := rfl
@[simp] theorem Blocks.setPlan_draws (p : Option Plan) (b : Blocks) : (b.setPlan p).draws = b.draws := rfl
@[simp] theorem Blocks.setPlan_stop (p : Option Plan) (b : Blocks) : (b.setPlan p).stop = b.stop := rfl
@[simp] theorem Blocks.setPlan_line (p : Option Plan) (b : Blocks) : (b.setPlan p).line = b.line := rfl
@[simp] theorem Blocks.setPlan_asking (p : Option Plan) (b : Blocks) : (b.setPlan p).asking = b.asking := rfl
@[simp] theorem Blocks.setPlan_pres (p : Option Plan) (b : Blocks) : (b.setPlan p).pres = b.pres := rfl
@[simp] theorem Blocks.setPlan_planner (p : Option Plan) (b : Blocks) : (b.setPlan p).planner = { b.planner with plan := p } := rfl
@[simp] theorem Blocks.setPlan_saw (p : Option Plan) (b : Blocks) : (b.setPlan p).saw = b.saw := rfl
@[simp] theorem Blocks.setPlan_meas (p : Option Plan) (b : Blocks) : (b.setPlan p).meas = b.meas := rfl
@[simp] theorem Blocks.setPlan_plant (p : Option Plan) (b : Blocks) : (b.setPlan p).plant = b.plant := rfl
@[simp] theorem Blocks.setPlan_cost (p : Option Plan) (b : Blocks) : (b.setPlan p).cost = b.cost := rfl
@[simp] theorem Blocks.setPlan_host (p : Option Plan) (b : Blocks) : (b.setPlan p).host = b.host := rfl

@[simp] theorem Blocks.setSealT_now (t : Option Nat) (b : Blocks) : (b.setSealT t).now = b.now := rfl
@[simp] theorem Blocks.setSealT_selLow (t : Option Nat) (b : Blocks) : (b.setSealT t).selLow = b.selLow := rfl
@[simp] theorem Blocks.setSealT_draws (t : Option Nat) (b : Blocks) : (b.setSealT t).draws = b.draws := rfl
@[simp] theorem Blocks.setSealT_stop (t : Option Nat) (b : Blocks) : (b.setSealT t).stop = b.stop := rfl
@[simp] theorem Blocks.setSealT_line (t : Option Nat) (b : Blocks) : (b.setSealT t).line = b.line := rfl
@[simp] theorem Blocks.setSealT_asking (t : Option Nat) (b : Blocks) : (b.setSealT t).asking = b.asking := rfl
@[simp] theorem Blocks.setSealT_pres (t : Option Nat) (b : Blocks) : (b.setSealT t).pres = b.pres := rfl
@[simp] theorem Blocks.setSealT_planner (t : Option Nat) (b : Blocks) : (b.setSealT t).planner = { b.planner with sealT := t } := rfl
@[simp] theorem Blocks.setSealT_saw (t : Option Nat) (b : Blocks) : (b.setSealT t).saw = b.saw := rfl
@[simp] theorem Blocks.setSealT_meas (t : Option Nat) (b : Blocks) : (b.setSealT t).meas = b.meas := rfl
@[simp] theorem Blocks.setSealT_plant (t : Option Nat) (b : Blocks) : (b.setSealT t).plant = b.plant := rfl
@[simp] theorem Blocks.setSealT_cost (t : Option Nat) (b : Blocks) : (b.setSealT t).cost = b.cost := rfl
@[simp] theorem Blocks.setSealT_host (t : Option Nat) (b : Blocks) : (b.setSealT t).host = b.host := rfl

@[simp] theorem Blocks.setStream_now (x : Option Stream) (b : Blocks) : (b.setStream x).now = b.now := rfl
@[simp] theorem Blocks.setStream_selLow (x : Option Stream) (b : Blocks) : (b.setStream x).selLow = b.selLow := rfl
@[simp] theorem Blocks.setStream_draws (x : Option Stream) (b : Blocks) : (b.setStream x).draws = b.draws := rfl
@[simp] theorem Blocks.setStream_stop (x : Option Stream) (b : Blocks) : (b.setStream x).stop = b.stop := rfl
@[simp] theorem Blocks.setStream_line (x : Option Stream) (b : Blocks) : (b.setStream x).line = b.line := rfl
@[simp] theorem Blocks.setStream_asking (x : Option Stream) (b : Blocks) : (b.setStream x).asking = { b.asking with stream := x } := rfl
@[simp] theorem Blocks.setStream_pres (x : Option Stream) (b : Blocks) : (b.setStream x).pres = b.pres := rfl
@[simp] theorem Blocks.setStream_planner (x : Option Stream) (b : Blocks) : (b.setStream x).planner = b.planner := rfl
@[simp] theorem Blocks.setStream_saw (x : Option Stream) (b : Blocks) : (b.setStream x).saw = b.saw := rfl
@[simp] theorem Blocks.setStream_meas (x : Option Stream) (b : Blocks) : (b.setStream x).meas = b.meas := rfl
@[simp] theorem Blocks.setStream_plant (x : Option Stream) (b : Blocks) : (b.setStream x).plant = b.plant := rfl
@[simp] theorem Blocks.setStream_cost (x : Option Stream) (b : Blocks) : (b.setStream x).cost = b.cost := rfl
@[simp] theorem Blocks.setStream_host (x : Option Stream) (b : Blocks) : (b.setStream x).host = b.host := rfl

@[simp] theorem Blocks.setAskT_now (t : Option Nat) (b : Blocks) : (b.setAskT t).now = b.now := rfl
@[simp] theorem Blocks.setAskT_selLow (t : Option Nat) (b : Blocks) : (b.setAskT t).selLow = b.selLow := rfl
@[simp] theorem Blocks.setAskT_draws (t : Option Nat) (b : Blocks) : (b.setAskT t).draws = b.draws := rfl
@[simp] theorem Blocks.setAskT_stop (t : Option Nat) (b : Blocks) : (b.setAskT t).stop = b.stop := rfl
@[simp] theorem Blocks.setAskT_line (t : Option Nat) (b : Blocks) : (b.setAskT t).line = b.line := rfl
@[simp] theorem Blocks.setAskT_asking (t : Option Nat) (b : Blocks) : (b.setAskT t).asking = b.asking := rfl
@[simp] theorem Blocks.setAskT_pres (t : Option Nat) (b : Blocks) : (b.setAskT t).pres = { b.pres with askT := t } := rfl
@[simp] theorem Blocks.setAskT_planner (t : Option Nat) (b : Blocks) : (b.setAskT t).planner = b.planner := rfl
@[simp] theorem Blocks.setAskT_saw (t : Option Nat) (b : Blocks) : (b.setAskT t).saw = b.saw := rfl
@[simp] theorem Blocks.setAskT_meas (t : Option Nat) (b : Blocks) : (b.setAskT t).meas = b.meas := rfl
@[simp] theorem Blocks.setAskT_plant (t : Option Nat) (b : Blocks) : (b.setAskT t).plant = b.plant := rfl
@[simp] theorem Blocks.setAskT_cost (t : Option Nat) (b : Blocks) : (b.setAskT t).cost = b.cost := rfl
@[simp] theorem Blocks.setAskT_host (t : Option Nat) (b : Blocks) : (b.setAskT t).host = b.host := rfl

@[simp] theorem Blocks.setMem_now (m : Membership) (b : Blocks) : (b.setMem m).now = b.now := rfl
@[simp] theorem Blocks.setMem_selLow (m : Membership) (b : Blocks) : (b.setMem m).selLow = b.selLow := rfl
@[simp] theorem Blocks.setMem_draws (m : Membership) (b : Blocks) : (b.setMem m).draws = b.draws := rfl
@[simp] theorem Blocks.setMem_stop (m : Membership) (b : Blocks) : (b.setMem m).stop = b.stop := rfl
@[simp] theorem Blocks.setMem_line (m : Membership) (b : Blocks) : (b.setMem m).line = b.line := rfl
@[simp] theorem Blocks.setMem_asking (m : Membership) (b : Blocks) : (b.setMem m).asking = b.asking := rfl
@[simp] theorem Blocks.setMem_pres (m : Membership) (b : Blocks) : (b.setMem m).pres = { b.pres with mem := m } := rfl
@[simp] theorem Blocks.setMem_planner (m : Membership) (b : Blocks) : (b.setMem m).planner = b.planner := rfl
@[simp] theorem Blocks.setMem_saw (m : Membership) (b : Blocks) : (b.setMem m).saw = b.saw := rfl
@[simp] theorem Blocks.setMem_meas (m : Membership) (b : Blocks) : (b.setMem m).meas = b.meas := rfl
@[simp] theorem Blocks.setMem_plant (m : Membership) (b : Blocks) : (b.setMem m).plant = b.plant := rfl
@[simp] theorem Blocks.setMem_cost (m : Membership) (b : Blocks) : (b.setMem m).cost = b.cost := rfl
@[simp] theorem Blocks.setMem_host (m : Membership) (b : Blocks) : (b.setMem m).host = b.host := rfl

@[simp] theorem Blocks.atDeadline_now (d : Nat) (b : Blocks) : (b.atDeadline d).now = max b.now d := rfl
@[simp] theorem Blocks.atDeadline_selLow (d : Nat) (b : Blocks) : (b.atDeadline d).selLow = b.selLow := rfl
@[simp] theorem Blocks.atDeadline_draws (d : Nat) (b : Blocks) : (b.atDeadline d).draws = b.draws := rfl
@[simp] theorem Blocks.atDeadline_stop (d : Nat) (b : Blocks) : (b.atDeadline d).stop = b.stop := rfl
@[simp] theorem Blocks.atDeadline_line (d : Nat) (b : Blocks) : (b.atDeadline d).line = b.line := rfl
@[simp] theorem Blocks.atDeadline_asking (d : Nat) (b : Blocks) : (b.atDeadline d).asking = b.asking := rfl
@[simp] theorem Blocks.atDeadline_pres (d : Nat) (b : Blocks) : (b.atDeadline d).pres = b.pres := rfl
@[simp] theorem Blocks.atDeadline_planner (d : Nat) (b : Blocks) : (b.atDeadline d).planner = b.planner := rfl
@[simp] theorem Blocks.atDeadline_saw (d : Nat) (b : Blocks) : (b.atDeadline d).saw = b.saw := rfl
@[simp] theorem Blocks.atDeadline_meas (d : Nat) (b : Blocks) : (b.atDeadline d).meas = b.meas := rfl
@[simp] theorem Blocks.atDeadline_plant (d : Nat) (b : Blocks) : (b.atDeadline d).plant = b.plant := rfl
@[simp] theorem Blocks.atDeadline_cost (d : Nat) (b : Blocks) : (b.atDeadline d).cost = b.cost := rfl
@[simp] theorem Blocks.atDeadline_host (d : Nat) (b : Blocks) : (b.atDeadline d).host = b.host := rfl

@[simp] theorem Blocks.offer_now (p : Producer) (x : Frame) (b : Blocks) : (b.offer p x).now = b.now := by
  unfold Blocks.offer; split <;> rfl
@[simp] theorem Blocks.offer_selLow (p : Producer) (x : Frame) (b : Blocks) : (b.offer p x).selLow = b.selLow := by
  unfold Blocks.offer; split <;> rfl
@[simp] theorem Blocks.offer_draws (p : Producer) (x : Frame) (b : Blocks) : (b.offer p x).draws = b.draws := by
  unfold Blocks.offer; split <;> rfl
@[simp] theorem Blocks.offer_stop (p : Producer) (x : Frame) (b : Blocks) : (b.offer p x).stop = b.stop := by
  unfold Blocks.offer; split <;> rfl
@[simp] theorem Blocks.offer_asking (p : Producer) (x : Frame) (b : Blocks) : (b.offer p x).asking = b.asking := by
  unfold Blocks.offer; split <;> rfl
@[simp] theorem Blocks.offer_pres (p : Producer) (x : Frame) (b : Blocks) : (b.offer p x).pres = b.pres := by
  unfold Blocks.offer; split <;> rfl
@[simp] theorem Blocks.offer_planner (p : Producer) (x : Frame) (b : Blocks) : (b.offer p x).planner = b.planner := by
  unfold Blocks.offer; split <;> rfl
@[simp] theorem Blocks.offer_saw (p : Producer) (x : Frame) (b : Blocks) : (b.offer p x).saw = b.saw := by
  unfold Blocks.offer; split <;> rfl
@[simp] theorem Blocks.offer_meas (p : Producer) (x : Frame) (b : Blocks) : (b.offer p x).meas = b.meas := by
  unfold Blocks.offer; split <;> rfl
@[simp] theorem Blocks.offer_plant (p : Producer) (x : Frame) (b : Blocks) : (b.offer p x).plant = b.plant := by
  unfold Blocks.offer; split <;> rfl
@[simp] theorem Blocks.offer_cost (p : Producer) (x : Frame) (b : Blocks) : (b.offer p x).cost = b.cost := by
  unfold Blocks.offer; split <;> rfl
@[simp] theorem Blocks.offer_host (p : Producer) (x : Frame) (b : Blocks) : (b.offer p x).host = b.host := by
  unfold Blocks.offer; split <;> rfl

/-- An offer reaches the queue unless the membership state turns it away (R22). -/
theorem Blocks.offer_line (p : Producer) (x : Frame) (b : Blocks) :
    (b.offer p x).line = if b.pres.mem.offers then b.line.offer p x else b.line := by
  unfold Blocks.offer; split <;> rfl

@[simp] theorem Blocks.withdraw_now (p : Producer) (sel : Frame → Bool) (b : Blocks) :
    (b.withdraw p sel).now = b.now := rfl
@[simp] theorem Blocks.withdraw_selLow (p : Producer) (sel : Frame → Bool) (b : Blocks) :
    (b.withdraw p sel).selLow = b.selLow := rfl
@[simp] theorem Blocks.withdraw_draws (p : Producer) (sel : Frame → Bool) (b : Blocks) :
    (b.withdraw p sel).draws = b.draws := rfl
@[simp] theorem Blocks.withdraw_stop (p : Producer) (sel : Frame → Bool) (b : Blocks) :
    (b.withdraw p sel).stop = b.stop := rfl
@[simp] theorem Blocks.withdraw_line (p : Producer) (sel : Frame → Bool) (b : Blocks) :
    (b.withdraw p sel).line = b.line.withdraw p sel false := rfl
@[simp] theorem Blocks.withdraw_asking (p : Producer) (sel : Frame → Bool) (b : Blocks) :
    (b.withdraw p sel).asking = b.asking := rfl
@[simp] theorem Blocks.withdraw_pres (p : Producer) (sel : Frame → Bool) (b : Blocks) :
    (b.withdraw p sel).pres = b.pres := rfl
@[simp] theorem Blocks.withdraw_planner (p : Producer) (sel : Frame → Bool) (b : Blocks) :
    (b.withdraw p sel).planner = b.planner := rfl
@[simp] theorem Blocks.withdraw_saw (p : Producer) (sel : Frame → Bool) (b : Blocks) :
    (b.withdraw p sel).saw = b.saw := rfl
@[simp] theorem Blocks.withdraw_meas (p : Producer) (sel : Frame → Bool) (b : Blocks) :
    (b.withdraw p sel).meas = b.meas := rfl
@[simp] theorem Blocks.withdraw_plant (p : Producer) (sel : Frame → Bool) (b : Blocks) :
    (b.withdraw p sel).plant = b.plant := rfl
@[simp] theorem Blocks.withdraw_cost (p : Producer) (sel : Frame → Bool) (b : Blocks) :
    (b.withdraw p sel).cost = b.cost := rfl
@[simp] theorem Blocks.withdraw_host (p : Producer) (sel : Frame → Bool) (b : Blocks) :
    (b.withdraw p sel).host = b.host := rfl

@[simp] theorem Blocks.post_now (n : Notice) (b : Blocks) : (b.post n).now = b.now := by
  unfold Blocks.post; split <;> [rfl; (split <;> rfl)]
@[simp] theorem Blocks.post_selLow (n : Notice) (b : Blocks) : (b.post n).selLow = b.selLow := by
  unfold Blocks.post; split <;> [rfl; (split <;> rfl)]
@[simp] theorem Blocks.post_draws (n : Notice) (b : Blocks) : (b.post n).draws = b.draws := by
  unfold Blocks.post; split <;> [rfl; (split <;> rfl)]
@[simp] theorem Blocks.post_stop (n : Notice) (b : Blocks) : (b.post n).stop = b.stop := by
  unfold Blocks.post; split <;> [rfl; (split <;> rfl)]
@[simp] theorem Blocks.post_line (n : Notice) (b : Blocks) : (b.post n).line = b.line := by
  unfold Blocks.post; split <;> [rfl; (split <;> rfl)]
@[simp] theorem Blocks.post_asking (n : Notice) (b : Blocks) : (b.post n).asking = b.asking := by
  unfold Blocks.post; split <;> [rfl; (split <;> rfl)]
@[simp] theorem Blocks.post_pres (n : Notice) (b : Blocks) : (b.post n).pres = b.pres := by
  unfold Blocks.post; split <;> [rfl; (split <;> rfl)]
@[simp] theorem Blocks.post_planner (n : Notice) (b : Blocks) : (b.post n).planner = b.planner := by
  unfold Blocks.post; split <;> [rfl; (split <;> rfl)]
@[simp] theorem Blocks.post_saw (n : Notice) (b : Blocks) : (b.post n).saw = b.saw := by
  unfold Blocks.post; split <;> [rfl; (split <;> rfl)]
@[simp] theorem Blocks.post_meas (n : Notice) (b : Blocks) : (b.post n).meas = b.meas := by
  unfold Blocks.post; split <;> [rfl; (split <;> rfl)]
@[simp] theorem Blocks.post_plant (n : Notice) (b : Blocks) : (b.post n).plant = b.plant := by
  unfold Blocks.post; split <;> [rfl; (split <;> rfl)]
@[simp] theorem Blocks.post_cost (n : Notice) (b : Blocks) : (b.post n).cost = b.cost := by
  unfold Blocks.post; split <;> [rfl; (split <;> rfl)]
@[simp] theorem Blocks.post_host_exchange (n : Notice) (b : Blocks) : (b.post n).host.exchange = b.host.exchange := by
  unfold Blocks.post; split <;> [rfl; (split <;> rfl)]
@[simp] theorem Blocks.post_host_reply (n : Notice) (b : Blocks) : (b.post n).host.reply = b.host.reply := by
  unfold Blocks.post; split <;> [rfl; (split <;> rfl)]
@[simp] theorem Blocks.post_host_cursor (n : Notice) (b : Blocks) : (b.post n).host.cursor = b.host.cursor := by
  unfold Blocks.post; split <;> [rfl; (split <;> rfl)]
@[simp] theorem Blocks.post_host_rejoinPending (n : Notice) (b : Blocks) : (b.post n).host.rejoinPending = b.host.rejoinPending := by
  unfold Blocks.post; split <;> [rfl; (split <;> rfl)]
@[simp] theorem Blocks.post_host_planPart (n : Notice) (b : Blocks) : (b.post n).host.planPart = b.host.planPart := by
  unfold Blocks.post; split <;> [rfl; (split <;> rfl)]

@[simp] theorem Station.onBlk_shop (f : Shop → Blocks → Blocks) (d : Station) : (d.onBlk f).shop = d.shop := rfl
@[simp] theorem Station.onBlk_blk (f : Shop → Blocks → Blocks) (d : Station) : (d.onBlk f).blk = f d.shop d.blk := rfl
@[simp] theorem State.run_eq (f : Station → Station) (s : State) : s.run f = .next { s with dev := f s.dev } := rfl
@[simp] theorem State.runBlk_eq (f : Shop → Blocks → Blocks) (s : State) :
    s.runBlk f = .next { s with dev := s.dev.onBlk f } := rfl

end Sys2Proof.Machine
end

