-- ==== Sys2Proof/Laws/News.lean ====
section
/-! SUPPORT. What the blocks' own moves leave alone (R28): the straps, the pins and the clock, the host's exchange and
the receiver, and that each keeps the outbound queue and the notice queue sound. One lemma an operation, each reading
`from what held before the operation to what holds after it`. -/

set_option linter.unusedTactic false
set_option linter.unreachableTactic false

namespace Sys2Proof.Machine

/-- What the measurement unit has measured: all of its state but the load, pressure and valve tests (R104). -/
structure Meas.SameReadings (a b : Meas) : Prop where
  sampleT : b.sampleT = a.sampleT
  scan : b.scan = a.scan
  ma : b.ma = a.ma
  mb : b.mb = a.mb
  maHist : b.maHist = a.maHist
  mbHist : b.mbHist = a.mbHist
  missed : b.missed = a.missed
  windowT : b.windowT = a.windowT
  pulses : b.pulses = a.pulses
  window : b.window = a.window

theorem Meas.SameReadings.refl (m : Meas) : Meas.SameReadings m m :=
  ⟨rfl, rfl, rfl, rfl, rfl, rfl, rfl, rfl, rfl, rfl⟩

theorem Meas.SameReadings.trans {a b c : Meas} (h : Meas.SameReadings a b) (k : Meas.SameReadings b c) :
    Meas.SameReadings a c :=
  ⟨k.sampleT.trans h.sampleT, k.scan.trans h.scan, k.ma.trans h.ma, k.mb.trans h.mb, k.maHist.trans h.maHist,
    k.mbHist.trans h.mbHist, k.missed.trans h.missed, k.windowT.trans h.windowT, k.pulses.trans h.pulses,
    k.window.trans h.window⟩

/-- From the blocks `a` to the blocks `b`, nothing has moved but what blocks move when they are told news. -/
structure Tells (a b : Blocks) : Prop where
  now : b.now = a.now
  draws : b.draws = a.draws
  selLow : b.selLow = a.selLow
  stop : b.stop = a.stop
  station : b.pres.station = a.pres.station
  role : b.pres.role = a.pres.role
  rate : b.pres.rate = a.pres.rate
  exchange : b.host.exchange = a.host.exchange
  reply : b.host.reply = a.host.reply
  cursor : b.host.cursor = a.host.cursor
  planPart : b.host.planPart = a.host.planPart
  rejoin : b.host.rejoinPending = true → a.host.rejoinPending = true
  wire : Line.SameWire a.line b.line
  meas : Meas.SameReadings a.meas b.meas
  line : a.line.Sound → b.line.Sound
  host : a.host.sound = true → b.host.sound = true

namespace Tells

variable {a b b₀ : Blocks}

theorem refl (a : Blocks) : Tells a a :=
  ⟨rfl, rfl, rfl, rfl, rfl, rfl, rfl, rfl, rfl, rfl, rfl, id, Line.SameWire.refl _, Meas.SameReadings.refl _, id, id⟩

theorem trans {c : Blocks} (h : Tells a b) (k : Tells b c) : Tells a c :=
  ⟨k.now.trans h.now, k.draws.trans h.draws, k.selLow.trans h.selLow, k.stop.trans h.stop, k.station.trans h.station, k.role.trans h.role,
    k.rate.trans h.rate, k.exchange.trans h.exchange, k.reply.trans h.reply, k.cursor.trans h.cursor,
    k.planPart.trans h.planPart, fun x => h.rejoin (k.rejoin x), h.wire.trans k.wire, h.meas.trans k.meas, fun x =>
        k.line (h.line x),
    fun x => k.host (h.host x)⟩

/-- A change of the blocks that the structure does not name. -/
theorem same {c : Blocks} (h : Tells a b) (h1 : c.now = b.now) (h0 : c.draws = b.draws)
    (h2 : c.selLow = b.selLow) (h3 : c.stop = b.stop)
    (h4 : c.pres.station = b.pres.station) (h5 : c.pres.role = b.pres.role) (h6 : c.pres.rate = b.pres.rate)
    (h7 : c.line = b.line) (h8 : c.host = b.host) (h9 : Meas.SameReadings b.meas c.meas) : Tells a c :=
  h.trans ⟨h1, h0, h2, h3, h4, h5, h6, by rw [h8], by rw [h8], by rw [h8], by rw [h8], by rw [h8]; exact id,
    by rw [h7]; exact Line.SameWire.refl _, h9, by rw [h7]; exact id, by rw [h8]; exact id⟩

theorem onAsking (h : Tells a b) (f : Asking → Asking) : Tells a (b.onAsking f) :=
  h.same rfl rfl rfl rfl rfl rfl rfl rfl rfl (Meas.SameReadings.refl _)
theorem onPlanner (h : Tells a b) (f : Planner → Planner) : Tells a (b.onPlanner f) :=
  h.same rfl rfl rfl rfl rfl rfl rfl rfl rfl (Meas.SameReadings.refl _)
theorem onSaw (h : Tells a b) (f : Saw → Saw) : Tells a (b.onSaw f) :=
  h.same rfl rfl rfl rfl rfl rfl rfl rfl rfl (Meas.SameReadings.refl _)
theorem onMeas (h : Tells a b) {f : Meas → Meas} (hf : Meas.SameReadings b.meas (f b.meas)) : Tells a (b.onMeas f) :=
  h.same rfl rfl rfl rfl rfl rfl rfl rfl rfl hf
theorem onPlant (h : Tells a b) (f : PlantUnit → PlantUnit) : Tells a (b.onPlant f) :=
  h.same rfl rfl rfl rfl rfl rfl rfl rfl rfl (Meas.SameReadings.refl _)
theorem onCost (h : Tells a b) (f : CostUnit → CostUnit) : Tells a (b.onCost f) :=
  h.same rfl rfl rfl rfl rfl rfl rfl rfl rfl (Meas.SameReadings.refl _)
theorem onPlan (h : Tells a b) (f : Plan → Plan) : Tells a (b.onPlan f) :=
  h.same rfl rfl rfl rfl rfl rfl rfl rfl rfl (Meas.SameReadings.refl _)
theorem setPlan (h : Tells a b) (p : Option Plan) : Tells a (b.setPlan p) :=
  h.same rfl rfl rfl rfl rfl rfl rfl rfl rfl (Meas.SameReadings.refl _)
theorem setSealT (h : Tells a b) (t : Option Nat) : Tells a (b.setSealT t) :=
  h.same rfl rfl rfl rfl rfl rfl rfl rfl rfl (Meas.SameReadings.refl _)
theorem setStream (h : Tells a b) (x : Option Stream) : Tells a (b.setStream x) :=
  h.same rfl rfl rfl rfl rfl rfl rfl rfl rfl (Meas.SameReadings.refl _)
theorem setAskT (h : Tells a b) (t : Option Nat) : Tells a (b.setAskT t) :=
  h.same rfl rfl rfl rfl rfl rfl rfl rfl rfl (Meas.SameReadings.refl _)
theorem setMem (h : Tells a b) (m : Membership) : Tells a (b.setMem m) :=
  h.same rfl rfl rfl rfl rfl rfl rfl rfl rfl (Meas.SameReadings.refl _)

/-- A change of the presence unit that leaves the straps. -/
theorem onPres (h : Tells a b) {f : Presence → Presence} (h1 : (f b.pres).station = b.pres.station)
    (h2 : (f b.pres).role = b.pres.role) (h3 : (f b.pres).rate = b.pres.rate) : Tells a (b.onPres f) :=
  h.same rfl rfl rfl rfl h1 h2 h3 rfl rfl (Meas.SameReadings.refl _)

/-- A change of the outbound queue. -/
theorem onQueue (h : Tells a b) {l : Line} (hw : Line.SameWire b.line l) (hs : b.line.Sound → l.Sound) :
    Tells a { b with line := l } :=
  h.trans ⟨rfl, rfl, rfl, rfl, rfl, rfl, rfl, rfl, rfl, rfl, rfl, id, hw, Meas.SameReadings.refl _, hs, id⟩

theorem offer (h : Tells a b) (p : Producer) (f : Frame) : Tells a (b.offer p f) := by
  unfold Blocks.offer
  split
  · exact h.onQueue (Line.offer_sameWire p f b.line) (fun x => x.offer p f)
  · exact h

theorem withdraw (h : Tells a b) (p : Producer) (sel : Frame → Bool) : Tells a (b.withdraw p sel) :=
  h.onQueue (Line.withdraw_sameWire p sel false b.line) (fun x => x.withdraw p sel false)

/-- A notice joins, or is dropped and counted (R191). -/
theorem post (h : Tells a b) (n : Notice) : Tells a (b.post n) := by
  unfold Blocks.post
  split
  · exact h
  · split
    · refine h.trans
        ⟨rfl, rfl, rfl, rfl, rfl, rfl, rfl, rfl, rfl, rfl, rfl, id, Line.SameWire.refl _, Meas.SameReadings.refl _, id, ?_⟩
      intro hs
      simp only [HostPort.sound, Bool.and_eq_true, decide_eq_true_eq] at hs ⊢
      refine ⟨⟨⟨?_, ?_⟩, hs.1.2⟩, hs.2⟩
      · simp only [List.length_append, List.length_singleton]; omega
      · simp
    · refine h.trans
        ⟨rfl, rfl, rfl, rfl, rfl, rfl, rfl, rfl, rfl, rfl, rfl, id, Line.SameWire.refl _, Meas.SameReadings.refl _, id, ?_⟩
      intro hs
      simp only [HostPort.sound, Bool.and_eq_true, decide_eq_true_eq] at hs ⊢
      exact ⟨⟨hs.1.1, Nat.min_le_left _ _⟩, hs.2⟩

/-- A run of moves. -/
theorem foldl {β : Type} {f : Blocks → β → Blocks} (hf : ∀ x c, Tells a c → Tells a (f c x)) :
    ∀ (l : List β) {b : Blocks}, Tells a b → Tells a (l.foldl f b) := by
  intro l
  induction l with
  | nil => intro b h; exact h
  | cons x rest ih => intro b h; exact ih (hf x b h)

theorem offerSnap (h : Tells b₀ b) (sh : Shop) : Tells b₀ (b.offerSnap sh) := by
  unfold Blocks.offerSnap
  try dsimp only
  repeat' split
  all_goals first | exact h | apply_rules (transparency := .reducible) [Tells.setStream, Tells.offer]

theorem startStream (h : Tells b₀ b) (sh : Shop) (asker : Nat) : Tells b₀ (b.startStream sh asker) := by
  unfold Blocks.startStream
  try dsimp only
  repeat' split
  all_goals first | exact h | apply_rules (transparency := .reducible) [Tells.setStream, Tells.offerSnap]

theorem refreshStream (h : Tells b₀ b) (sh : Shop) : Tells b₀ (b.refreshStream sh) := by
  unfold Blocks.refreshStream
  try dsimp only
  repeat' split
  all_goals first | exact h | apply_rules (transparency := .reducible) [Tells.withdraw, Tells.offerSnap]

theorem restartStream (h : Tells b₀ b) (sh : Shop) : Tells b₀ (b.restartStream sh) := by
  unfold Blocks.restartStream
  try dsimp only
  repeat' split
  all_goals first | exact h | apply_rules (transparency := .reducible) [Tells.withdraw, Tells.startStream]

theorem dropStream (h : Tells b₀ b) : Tells b₀ (b.dropStream) := by
  unfold Blocks.dropStream
  try dsimp only
  repeat' split
  all_goals first | exact h | apply_rules (transparency := .reducible) [Tells.withdraw, Tells.setStream]

theorem snapCompleted (h : Tells b₀ b) (sh : Shop) (f : Frame) : Tells b₀ (b.snapCompleted sh f) := by
  unfold Blocks.snapCompleted
  try dsimp only
  repeat' split
  all_goals first | exact h | apply_rules (transparency := .reducible) [Tells.setStream, Tells.offerSnap]

theorem streamAfter (h : Tells b₀ b) (members ledger : Bool) (sh : Shop) : Tells b₀ (b.streamAfter members ledger sh)
    := by
  unfold Blocks.streamAfter
  try dsimp only
  repeat' split
  all_goals first | exact h | apply_rules (transparency := .reducible) [Tells.restartStream, Tells.refreshStream]

theorem rivalSnap (h : Tells b₀ b) (sender asker : Nat) : Tells b₀ (b.rivalSnap sender asker) := by
  unfold Blocks.rivalSnap
  try dsimp only
  repeat' split
  all_goals first | exact h | apply_rules (transparency := .reducible) [Tells.dropStream]

theorem restartAskT (h : Tells b₀ b) : Tells b₀ (b.restartAskT) := by
  unfold Blocks.restartAskT
  try dsimp only
  repeat' split
  all_goals first | exact h | apply_rules (transparency := .reducible) [Tells.setAskT]

theorem ask (h : Tells b₀ b) (sh : Shop) : Tells b₀ (b.ask sh) := by
  unfold Blocks.ask
  try dsimp only
  repeat' split
  all_goals first | exact h | apply_rules (transparency := .reducible) [Tells.setAskT, Tells.onAsking, Tells.offer]

theorem clearAsks (h : Tells b₀ b) : Tells b₀ (b.clearAsks) := by
  unfold Blocks.clearAsks
  try dsimp only
  repeat' split
  all_goals first | exact h | apply_rules (transparency := .reducible) [Tells.onAsking]

theorem snapHeardNow (h : Tells b₀ b) : Tells b₀ (b.snapHeardNow) := by
  unfold Blocks.snapHeardNow
  try dsimp only
  repeat' split
  all_goals first | exact h | apply_rules (transparency := .reducible) [Tells.onAsking]

theorem withdrawRebase (h : Tells b₀ b) : Tells b₀ (b.withdrawRebase) := by
  unfold Blocks.withdrawRebase
  exact h.onQueue (Line.withdraw_sameWire _ _ _ _) (fun x => x.withdraw _ _ _)

theorem reportLine (h : Tells b₀ b) (slot : Nat) (x : CostLine) : Tells b₀ (b.reportLine slot x) := by
  unfold Blocks.reportLine
  try dsimp only
  repeat' split
  all_goals first | exact h | apply_rules (transparency := .reducible) [Tells.onCost, Tells.offer]

theorem reportChecks (h : Tells b₀ b) (sh : Shop) : Tells b₀ (b.reportChecks sh) := by
  unfold Blocks.reportChecks
  split
  · refine foldl (fun x c k => ?_) _ h
    split
    · exact k.reportLine _ _
    · exact k
  · exact h

theorem zeroCheck (h : Tells b₀ b) (sh : Shop) (n : Nat) : Tells b₀ (b.zeroCheck sh n) := by
  unfold Blocks.zeroCheck
  try dsimp only
  repeat' split
  all_goals first | exact h | apply_rules (transparency := .reducible) [Tells.onCost, Tells.offer]

theorem zeroChecks (h : Tells b₀ b) (sh : Shop) : Tells b₀ (b.zeroChecks sh) := by
  unfold Blocks.zeroChecks
  exact foldl (fun x c k => k.zeroCheck sh x) _ h

theorem withdrawZero (h : Tells b₀ b) (n : Nat) : Tells b₀ (b.withdrawZero n) := by
  unfold Blocks.withdrawZero
  try dsimp only
  repeat' split
  all_goals first | exact h | apply_rules (transparency := .reducible) [Tells.withdraw, Tells.onCost]

theorem reportOutcome (h : Tells b₀ b) (n : Nat) (taken : Bool) (gen : Word16) : Tells b₀ (b.reportOutcome n taken
    gen) := by
  unfold Blocks.reportOutcome
  try dsimp only
  repeat' split
  all_goals first | exact h | apply_rules (transparency := .reducible) [Tells.onCost, Tells.post]

theorem costPlanEnded (h : Tells b₀ b) (sh : Shop) : Tells b₀ (b.costPlanEnded sh) := by
  unfold Blocks.costPlanEnded
  try dsimp only
  repeat' split
  all_goals first | exact h | apply_rules (transparency := .reducible) [Tells.onCost, Tells.reportChecks]

theorem postTallies (h : Tells b₀ b) (before after : Replica) : Tells b₀ (b.postTallies before after) := by
  unfold Blocks.postTallies
  split
  · exact foldl (fun x c k => k.post _) _ h
  · exact h

theorem dropZeros (h : Tells b₀ b) (before after : Replica) : Tells b₀ (b.dropZeros before after) := by
  unfold Blocks.dropZeros
  refine foldl (fun x c k => ?_) _ h
  split
  · exact k.withdrawZero x
  · exact k

theorem costAfter (h : Tells b₀ b) (before : Replica) (sh : Shop) : Tells b₀ (b.costAfter before sh) := by
  unfold Blocks.costAfter
  try dsimp only
  repeat' split
  all_goals first | exact h | apply_rules (transparency := .reducible) [Tells.onCost, Tells.dropZeros,
      Tells.reportChecks, Tells.postTallies]

theorem costCurrent (h : Tells b₀ b) (sh : Shop) : Tells b₀ (b.costCurrent sh) := by
  unfold Blocks.costCurrent
  try dsimp only
  repeat' split
  all_goals first | exact h | apply_rules (transparency := .reducible) [Tells.onCost, Tells.reportChecks,
      Tells.zeroChecks]

theorem serialTaken (h : Tells b₀ b) (sh : Shop) : Tells b₀ (b.serialTaken sh) := by
  unfold Blocks.serialTaken
  exact h.same rfl rfl rfl rfl rfl rfl rfl rfl rfl (Meas.SameReadings.refl _)

theorem setSerial (h : Tells b₀ b) (sh : Shop) : Tells b₀ (b.setSerial sh) := by
  unfold Blocks.setSerial
  exact h.same rfl rfl rfl rfl rfl rfl rfl rfl rfl (Meas.SameReadings.refl _)

theorem offerConsume (h : Tells b₀ b) (sh : Shop) : Tells b₀ (b.offerConsume sh) := by
  unfold Blocks.offerConsume
  split
  · exact h
  · next p _ =>
    have key : ∀ (l : List Offcut) (acc : List Remnant × Blocks), Tells b₀ acc.2 →
        Tells b₀ (l.foldl (fun acc x => Blocks.takeRemnant sh x acc) acc).2 := by
      intro l
      induction l with
      | nil => intro acc k; exact k
      | cons x rest ih => intro acc k; exact ih _ (k.serialTaken sh)
    exact ((key _ ([], b) h).onPlan _).offer _ _

theorem reportState (h : Tells b₀ b) (st : SawState) : Tells b₀ (b.reportState st) := by
  unfold Blocks.reportState
  try dsimp only
  repeat' split
  all_goals first | exact h | apply_rules (transparency := .reducible) [Tells.onPlan]

theorem reportFault (h : Tells b₀ b) (r : FaultReason) : Tells b₀ (b.reportFault r) := by
  unfold Blocks.reportFault
  try dsimp only
  repeat' split
  all_goals first | exact h | apply_rules (transparency := .reducible) [Tells.onPlan]

theorem reportStarted (h : Tells b₀ b) : Tells b₀ (b.reportStarted) := by
  unfold Blocks.reportStarted
  try dsimp only
  repeat' split
  all_goals first | exact h | apply_rules (transparency := .reducible) [Tells.onPlan]

theorem reportCutDone (h : Tells b₀ b) (n : Nat) : Tells b₀ (b.reportCutDone n) := by
  unfold Blocks.reportCutDone
  try dsimp only
  repeat' split
  all_goals first | exact h | apply_rules (transparency := .reducible) [Tells.onPlan]

theorem reportFinishing (h : Tells b₀ b) (sh : Shop) : Tells b₀ (b.reportFinishing sh) := by
  unfold Blocks.reportFinishing
  try dsimp only
  repeat' split
  all_goals first | exact h | apply_rules (transparency := .reducible) [Tells.reportState, Tells.onPlan,
      Tells.offerConsume]

theorem setValve (h : Tells b₀ b) (v : Nat) : Tells b₀ (b.setValve v) := by
  unfold Blocks.setValve
  have k := h.onSaw (fun w => { w with valve := v })
  split
  · exact k.same rfl rfl rfl rfl rfl rfl rfl rfl rfl ⟨rfl, rfl, rfl, rfl, rfl, rfl, rfl, rfl, rfl, rfl⟩
  · split
    · exact k.same rfl rfl rfl rfl rfl rfl rfl rfl rfl ⟨rfl, rfl, rfl, rfl, rfl, rfl, rfl, rfl, rfl, rfl⟩
    · exact k

theorem valveAtGrant (h : Tells b₀ b) : Tells b₀ (b.valveAtGrant) := by
  unfold Blocks.valveAtGrant
  try dsimp only
  repeat' split
  all_goals first | exact h | apply_rules (transparency := .reducible) [Tells.setValve]

theorem bladeOff (h : Tells b₀ b) : Tells b₀ (b.bladeOff) := by
  unfold Blocks.bladeOff
  try dsimp only
  repeat' split
  all_goals first | exact h | apply_rules (transparency := .reducible) [Tells.onSaw, Tells.setValve]

theorem bladeOn (h : Tells b₀ b) : Tells b₀ (b.bladeOn) := by
  unfold Blocks.bladeOn
  try dsimp only
  repeat' split
  all_goals first | exact h | apply_rules (transparency := .reducible) [Tells.onSaw, Tells.valveAtGrant]

theorem feedOff (h : Tells b₀ b) : Tells b₀ (b.feedOff) := by
  unfold Blocks.feedOff
  try dsimp only
  repeat' split
  all_goals first | exact h | apply_rules (transparency := .reducible) [Tells.onSaw]

theorem setRate (h : Tells b₀ b) : Tells b₀ (b.setRate) := by
  unfold Blocks.setRate
  try dsimp only
  repeat' split
  all_goals first | exact h | apply_rules (transparency := .reducible) [Tells.onSaw]

theorem startDrop (h : Tells b₀ b) : Tells b₀ (b.startDrop) := by
  unfold Blocks.startDrop
  try dsimp only
  repeat' split
  all_goals first | exact h | apply_rules (transparency := .reducible) [Tells.onSaw]

theorem sawEnter (h : Tells b₀ b) (st : SawState) : Tells b₀ (b.sawEnter st) := by
  unfold Blocks.sawEnter
  try dsimp only
  repeat' split
  all_goals first | exact h | apply_rules (transparency := .reducible) [Tells.onSaw, Tells.reportState]

theorem sawFault (h : Tells b₀ b) (r : FaultReason) : Tells b₀ (b.sawFault r) := by
  unfold Blocks.sawFault
  try dsimp only
  repeat' split
  all_goals first | exact h | apply_rules (transparency := .reducible) [Tells.feedOff, Tells.bladeOff, Tells.onSaw,
      Tells.reportFault, Tells.startDrop, Tells.post]

theorem pulseBegins (h : Tells b₀ b) : Tells b₀ (b.pulseBegins) := by
  unfold Blocks.pulseBegins
  try dsimp only
  repeat' split
  all_goals first | exact h | apply_rules (transparency := .reducible) [Tells.onSaw, Tells.sawFault]

theorem askCheck (h : Tells b₀ b) (sh : Shop) : Tells b₀ (b.askCheck sh) := by
  unfold Blocks.askCheck
  try dsimp only
  repeat' split
  all_goals first | exact h | apply_rules (transparency := .reducible) [Tells.offer]

theorem wantWater (h : Tells b₀ b) (sh : Shop) : Tells b₀ (b.wantWater sh) := by
  unfold Blocks.wantWater
  try dsimp only
  repeat' split
  all_goals first | exact h | apply_rules (transparency := .reducible) [Tells.onSaw, Tells.withdraw, Tells.askCheck]

theorem enterCut (h : Tells b₀ b) (n : Nat) : Tells b₀ (b.enterCut n) := by
  unfold Blocks.enterCut
  try dsimp only
  repeat' split
  all_goals first | exact h | apply_rules (transparency := .reducible) [Tells.onSaw]

theorem enterFinishing (h : Tells b₀ b) (sh : Shop) : Tells b₀ (b.enterFinishing sh) := by
  unfold Blocks.enterFinishing
  try dsimp only
  repeat' split
  all_goals first | exact h | apply_rules (transparency := .reducible) [Tells.bladeOff, Tells.onSaw,
      Tells.reportFinishing]

theorem completeCut (h : Tells b₀ b) (sh : Shop) : Tells b₀ (b.completeCut sh) := by
  unfold Blocks.completeCut
  try dsimp only
  repeat' split
  all_goals first | exact h | apply_rules (transparency := .reducible) [Tells.feedOff, Tells.onSaw,
      Tells.reportCutDone, Tells.onCost, Tells.post, Tells.sawEnter, Tells.enterFinishing]

theorem enterCutting (h : Tells b₀ b) (sh : Shop) : Tells b₀ (b.enterCutting sh) := by
  unfold Blocks.enterCutting
  try dsimp only
  repeat' split
  all_goals first | exact h | apply_rules (transparency := .reducible) [Tells.onSaw, Tells.sawEnter,
      Tells.reportStarted, Tells.valveAtGrant, Tells.completeCut, Tells.setRate, Tells.pulseBegins]

theorem enterSpinup (h : Tells b₀ b) (sh : Shop) : Tells b₀ (b.enterSpinup sh) := by
  unfold Blocks.enterSpinup
  try dsimp only
  repeat' split
  all_goals first | exact h | apply_rules (transparency := .reducible) [Tells.onSaw, Tells.sawEnter,
      Tells.enterCutting, Tells.valveAtGrant, Tells.sawFault, Tells.bladeOn]

theorem enterWaterWait (h : Tells b₀ b) (sh : Shop) : Tells b₀ (b.enterWaterWait sh) := by
  unfold Blocks.enterWaterWait
  try dsimp only
  repeat' split
  all_goals first | exact h | apply_rules (transparency := .reducible) [Tells.feedOff, Tells.bladeOff, Tells.onSaw,
      Tells.sawEnter, Tells.enterSpinup]

theorem enterHeld (h : Tells b₀ b) : Tells b₀ (b.enterHeld) := by
  unfold Blocks.enterHeld
  try dsimp only
  repeat' split
  all_goals first | exact h | apply_rules (transparency := .reducible) [Tells.feedOff, Tells.onSaw, Tells.sawEnter,
      Tells.valveAtGrant, Tells.bladeOff]

theorem grantInHeld (h : Tells b₀ b) (sh : Shop) : Tells b₀ (b.grantInHeld sh) := by
  unfold Blocks.grantInHeld
  try dsimp only
  repeat' split
  all_goals first | exact h | apply_rules (transparency := .reducible) [Tells.enterCutting, Tells.enterSpinup,
      Tells.valveAtGrant, Tells.sawFault, Tells.bladeOn, Tells.bladeOff]

theorem grantMoves (h : Tells b₀ b) (sh : Shop) : Tells b₀ (b.grantMoves sh) := by
  unfold Blocks.grantMoves
  try dsimp only
  repeat' split
  all_goals first | exact h | apply_rules (transparency := .reducible) [Tells.enterSpinup, Tells.valveAtGrant,
      Tells.enterWaterWait, Tells.setRate, Tells.enterHeld, Tells.grantInHeld, Tells.bladeOff, Tells.onSaw]

theorem setGrant (h : Tells b₀ b) (sh : Shop) (g : Nat) : Tells b₀ (b.setGrant sh g) := by
  unfold Blocks.setGrant
  try dsimp only
  repeat' split
  all_goals first | exact h | apply_rules (transparency := .reducible) [Tells.onSaw, Tells.grantMoves]

theorem grantReport (h : Tells b₀ b) (before : Nat) (sh : Shop) : Tells b₀ (b.grantReport before sh) := by
  unfold Blocks.grantReport
  try dsimp only
  repeat' split
  all_goals first | exact h | apply_rules (transparency := .reducible) [Tells.setGrant, Tells.post]

theorem takeUp (h : Tells b₀ b) (p : Plan) : Tells b₀ (b.takeUp p) := by
  unfold Blocks.takeUp
  try dsimp only
  repeat' split
  all_goals first | exact h | apply_rules (transparency := .reducible) [Tells.onSaw, Tells.sawEnter]

theorem sawIdle (h : Tells b₀ b) : Tells b₀ (b.sawIdle) := by
  unfold Blocks.sawIdle
  try dsimp only
  repeat' split
  all_goals first | exact h | apply_rules (transparency := .reducible) [Tells.onSaw]

theorem sawPlanEnded (h : Tells b₀ b) : Tells b₀ (b.sawPlanEnded) := by
  unfold Blocks.sawPlanEnded
  try dsimp only
  repeat' split
  all_goals first | exact h | apply_rules (transparency := .reducible) [Tells.sawIdle, Tells.startDrop]

theorem sawWithdrawn (h : Tells b₀ b) : Tells b₀ (b.sawWithdrawn) := by
  unfold Blocks.sawWithdrawn
  try dsimp only
  repeat' split
  all_goals first | exact h | apply_rules (transparency := .reducible) [Tells.sawIdle, Tells.startDrop]

theorem sawSlabLost (h : Tells b₀ b) : Tells b₀ (b.sawSlabLost) := by
  unfold Blocks.sawSlabLost
  try dsimp only
  repeat' split
  all_goals first | exact h | apply_rules (transparency := .reducible) [Tells.onSaw, Tells.reportFault,
      Tells.sawFault]

theorem sawLeaves (h : Tells b₀ b) : Tells b₀ (b.sawLeaves) := by
  unfold Blocks.sawLeaves
  try dsimp only
  repeat' split
  all_goals first | exact h | apply_rules (transparency := .reducible) [Tells.withdraw]

theorem tellJam (h : Tells b₀ b) : Tells b₀ (b.tellJam) := by
  unfold Blocks.tellJam
  try dsimp only
  repeat' split
  all_goals first | exact h | apply_rules (transparency := .reducible) [Tells.sawFault]

theorem tellDry (h : Tells b₀ b) : Tells b₀ (b.tellDry) := by
  unfold Blocks.tellDry
  try dsimp only
  repeat' split
  all_goals first | exact h | apply_rules (transparency := .reducible) [Tells.sawFault]

theorem tellDerate (h : Tells b₀ b) : Tells b₀ (b.tellDerate) := by
  unfold Blocks.tellDerate
  try dsimp only
  repeat' split
  all_goals first | exact h | apply_rules (transparency := .reducible) [Tells.setRate]

theorem goLoad (h : Tells b₀ b) (sh : Shop) : Tells b₀ (b.goLoad sh) := by
  unfold Blocks.goLoad
  try dsimp only
  repeat' split
  all_goals first | exact h | apply_rules (transparency := .reducible) [Tells.onSaw, Tells.enterFinishing,
      Tells.enterCut, Tells.wantWater, Tells.enterWaterWait, Tells.withdraw]

theorem goIndex (h : Tells b₀ b) (sh : Shop) : Tells b₀ (b.goIndex sh) := by
  unfold Blocks.goIndex
  try dsimp only
  repeat' split
  all_goals first | exact h | apply_rules (transparency := .reducible) [Tells.onSaw, Tells.enterCut, Tells.wantWater,
      Tells.enterCutting, Tells.enterSpinup, Tells.enterWaterWait]

theorem sawResume (h : Tells b₀ b) (sh : Shop) : Tells b₀ (b.sawResume sh) := by
  unfold Blocks.sawResume
  try dsimp only
  repeat' split
  all_goals first | exact h | apply_rules (transparency := .reducible) [Tells.onSaw, Tells.enterCut, Tells.wantWater,
      Tells.enterWaterWait]

theorem postAll (h : Tells b₀ b) (l : List Notice) : Tells b₀ (b.postAll l) := by
  unfold Blocks.postAll
  exact foldl (fun x c k => k.post x) l h

theorem search (h : Tells b₀ b) (sh : Shop) : Tells b₀ (b.search sh) := by
  unfold Blocks.search
  try dsimp only
  repeat' split
  all_goals first | exact h | apply_rules (transparency := .reducible) [Tells.onPlanner, Tells.postAll, Tells.onCost,
      Tells.setPlan, Tells.offer]

theorem placePiece (h : Tells b₀ b) (p : Piece) (i : Nat) (x : Offcut) : Tells b₀ (b.placePiece p i x) := by
  unfold Blocks.placePiece
  try dsimp only
  repeat' split
  all_goals first | exact h | apply_rules (transparency := .reducible) [Tells.onPlanner, Tells.onCost, Tells.post]

theorem sealNow (h : Tells b₀ b) : Tells b₀ (b.sealNow) := by
  unfold Blocks.sealNow
  try dsimp only
  repeat' split
  all_goals first | exact h | apply_rules (transparency := .reducible) [Tells.setSealT, Tells.onPlan, Tells.post,
      Tells.takeUp]

theorem lookUpTo (h : Tells b₀ b) (sh : Shop) (n : Nat) : Tells b₀ (b.lookUpTo sh n) := by
  induction n generalizing b with
  | zero => exact h
  | succ n ih =>
    unfold Blocks.lookUpTo
    split
    · exact h
    · split
      · split
        · exact h.sealNow
        · dsimp only
          split
          · exact ih ((h.onCost _).placePiece _ _ _)
          · split
            · split
              · exact h
              · exact h.setSealT _
            · exact h.sealNow
      · exact h

theorem look (h : Tells b₀ b) (sh : Shop) : Tells b₀ (b.look sh) := by
  unfold Blocks.look
  try dsimp only
  repeat' split
  all_goals first | exact h | apply_rules (transparency := .reducible) [Tells.lookUpTo]

theorem searchOrLook (h : Tells b₀ b) (sh : Shop) : Tells b₀ (b.searchOrLook sh) := by
  unfold Blocks.searchOrLook
  try dsimp only
  repeat' split
  all_goals first | exact h | apply_rules (transparency := .reducible) [Tells.search, Tells.look]

theorem planEnds (h : Tells b₀ b) (sh : Shop) : Tells b₀ (b.planEnds sh) := by
  unfold Blocks.planEnds
  try dsimp only
  repeat' split
  all_goals first | exact h | apply_rules (transparency := .reducible) [Tells.setPlan, Tells.setSealT,
      Tells.costPlanEnded, Tells.search]

theorem claimFails (h : Tells b₀ b) (sh : Shop) (p : Plan) : Tells b₀ (b.claimFails sh p) := by
  unfold Blocks.claimFails
  try dsimp only
  repeat' split
  all_goals first | exact h | apply_rules (transparency := .reducible) [Tells.onCost, Tells.planEnds]

theorem offerRelease (h : Tells b₀ b) : Tells b₀ (b.offerRelease) := by
  unfold Blocks.offerRelease
  try dsimp only
  repeat' split
  all_goals first | exact h | apply_rules (transparency := .reducible) [Tells.onPlan, Tells.offer]

theorem offerReclaim (h : Tells b₀ b) : Tells b₀ (b.offerReclaim) := by
  unfold Blocks.offerReclaim
  try dsimp only
  repeat' split
  all_goals first | exact h | apply_rules (transparency := .reducible) [Tells.offer]

theorem planSlabLost (h : Tells b₀ b) : Tells b₀ (b.planSlabLost) := by
  unfold Blocks.planSlabLost
  try dsimp only
  repeat' split
  all_goals first | exact h | apply_rules (transparency := .reducible) [Tells.onPlan, Tells.post, Tells.sawSlabLost]

theorem firstPlacement (h : Tells b₀ b) (sh : Shop) (p : Plan) : Tells b₀ (b.firstPlacement sh p) := by
  unfold Blocks.firstPlacement
  try dsimp only
  repeat' split
  all_goals first | exact h | apply_rules (transparency := .reducible) [Tells.onCost, Tells.placePiece, Tells.look,
      Tells.offerRelease]

theorem claimOutcome (h : Tells b₀ b) (sh : Shop) (i : SlabId) (taken : Bool) : Tells b₀ (b.claimOutcome sh i taken)
    := by
  unfold Blocks.claimOutcome
  try dsimp only
  repeat' split
  all_goals first | exact h | apply_rules (transparency := .reducible) [Tells.onPlan, Tells.firstPlacement,
      Tells.claimFails]

theorem withdrawClaim (h : Tells b₀ b) (sh : Shop) (p : Plan) : Tells b₀ (b.withdrawClaim sh p) := by
  unfold Blocks.withdrawClaim
  try dsimp only
  repeat' split
  all_goals first | exact h | apply_rules (transparency := .reducible) [Tells.withdraw, Tells.claimFails]

theorem rivalClaim (h : Tells b₀ b) (sh : Shop) (i : SlabId) : Tells b₀ (b.rivalClaim sh i) := by
  unfold Blocks.rivalClaim
  try dsimp only
  repeat' split
  all_goals first | exact h | apply_rules (transparency := .reducible) [Tells.withdrawClaim]

theorem releaseOutcome (h : Tells b₀ b) (sh : Shop) (i : SlabId) (taken : Bool) : Tells b₀ (b.releaseOutcome sh i
    taken) := by
  unfold Blocks.releaseOutcome
  try dsimp only
  repeat' split
  all_goals first | exact h | apply_rules (transparency := .reducible) [Tells.onPlan, Tells.planEnds]

theorem consumeOutcome (h : Tells b₀ b) (sh : Shop) (i : SlabId) (taken : Bool) : Tells b₀ (b.consumeOutcome sh i
    taken) := by
  unfold Blocks.consumeOutcome
  try dsimp only
  repeat' split
  all_goals first | exact h | apply_rules (transparency := .reducible) [Tells.onCost, Tells.setPlan, Tells.post,
      Tells.sawPlanEnded, Tells.planEnds, Tells.onPlan, Tells.planSlabLost]

theorem reclaimed (h : Tells b₀ b) (sh : Shop) (p : Plan) : Tells b₀ (b.reclaimed sh p) := by
  unfold Blocks.reclaimed
  try dsimp only
  repeat' split
  all_goals first | exact h | apply_rules (transparency := .reducible) [Tells.onPlan, Tells.offerRelease,
      Tells.offerConsume, Tells.look]

theorem reclaimOutcome (h : Tells b₀ b) (sh : Shop) (i : SlabId) (taken : Bool) : Tells b₀ (b.reclaimOutcome sh i
    taken) := by
  unfold Blocks.reclaimOutcome
  try dsimp only
  repeat' split
  all_goals first | exact h | apply_rules (transparency := .reducible) [Tells.reclaimed, Tells.planSlabLost,
      Tells.planEnds]

theorem jobsLeft (h : Tells b₀ b) (sh : Shop) (left : Nat → Bool) : Tells b₀ (b.jobsLeft sh left) := by
  unfold Blocks.jobsLeft
  try dsimp only
  repeat' split
  all_goals apply_rules (transparency := .reducible) [Tells.onPlanner, Tells.postAll, Tells.onPlan, Tells.withdrawClaim]

theorem jobLeft (h : Tells b₀ b) (sh : Shop) (n : Nat) : Tells b₀ (b.jobLeft sh n) := h.jobsLeft sh _

theorem rereadJobs (h : Tells b₀ b) (sh : Shop) : Tells b₀ (b.rereadJobs sh) := h.jobsLeft sh _

theorem piecesReturn (h : Tells b₀ b) (r : Replica) (back : List Piece) : Tells b₀ (b.piecesReturn r back) := by
  unfold Blocks.piecesReturn
  try dsimp only
  repeat' split
  all_goals first | exact h | apply_rules (transparency := .reducible) [Tells.onPlanner, Tells.postAll]

theorem placementsLeave (h : Tells b₀ b) (sh : Shop) (leaves : Placement → Bool) (p : Plan) : Tells b₀
    (b.placementsLeave sh leaves p) := by
  unfold Blocks.placementsLeave
  try dsimp only
  repeat' split
  all_goals first | exact h | apply_rules (transparency := .reducible) [Tells.onPlan, Tells.piecesReturn,
      Tells.onCost, Tells.reportChecks]

theorem abandonQueued (h : Tells b₀ b) (sh : Shop) (p : Plan) : Tells b₀ (b.abandonQueued sh p) := by
  unfold Blocks.abandonQueued
  try dsimp only
  repeat' split
  all_goals first | exact h | apply_rules (transparency := .reducible) [Tells.sawWithdrawn, Tells.placementsLeave,
      Tells.onPlan, Tells.offerConsume, Tells.offerRelease]

theorem abandonLost (h : Tells b₀ b) (sh : Shop) (p : Plan) : Tells b₀ (b.abandonLost sh p) := by
  unfold Blocks.abandonLost
  try dsimp only
  repeat' split
  all_goals first | exact h | apply_rules (transparency := .reducible) [Tells.sawWithdrawn, Tells.placementsLeave,
      Tells.onCost, Tells.planEnds]

theorem plannerLeaves (h : Tells b₀ b) : Tells b₀ (b.plannerLeaves) := by
  unfold Blocks.plannerLeaves
  try dsimp only
  repeat' split
  all_goals first | exact h | apply_rules (transparency := .reducible) [Tells.withdraw, Tells.onPlan, Tells.setSealT]

theorem plannerEnters (h : Tells b₀ b) (sh : Shop) : Tells b₀ (b.plannerEnters sh) := by
  unfold Blocks.plannerEnters
  try dsimp only
  repeat' split
  all_goals first | exact h | apply_rules (transparency := .reducible) [Tells.search, Tells.onPlan,
      Tells.offerReclaim]

theorem plannerDiscarded (h : Tells b₀ b) (sh : Shop) (k : Kind) : Tells b₀ (b.plannerDiscarded sh k) := by
  unfold Blocks.plannerDiscarded
  try dsimp only
  repeat' split
  all_goals first | exact h | apply_rules (transparency := .reducible) [Tells.claimFails, Tells.onPlan]

theorem offerBudget (h : Tells b₀ b) (v : Nat) : Tells b₀ (b.offerBudget v) := by
  unfold Blocks.offerBudget
  try dsimp only
  repeat' split
  all_goals first | exact h | apply_rules (transparency := .reducible) [Tells.onPlant, Tells.offer]

theorem startSpacing (h : Tells b₀ b) : Tells b₀ (b.startSpacing) := by
  unfold Blocks.startSpacing
  try dsimp only
  repeat' split
  all_goals first | exact h | apply_rules (transparency := .reducible) [Tells.onPlant]

theorem withdrawBudget (h : Tells b₀ b) : Tells b₀ (b.withdrawBudget) := by
  unfold Blocks.withdrawBudget
  exact h.onQueue (Line.withdraw_sameWire _ _ _ _) (fun x => x.withdraw _ _ _)

theorem comparePublished (h : Tells b₀ b) (sh : Shop) : Tells b₀ (b.comparePublished sh) := by
  unfold Blocks.comparePublished
  try dsimp only
  repeat' split
  all_goals first | exact h | apply_rules (transparency := .reducible) [Tells.withdrawBudget, Tells.offerBudget,
      Tells.startSpacing]

theorem plantCompare (h : Tells b₀ b) (sh : Shop) : Tells b₀ (b.plantCompare sh) := by
  unfold Blocks.plantCompare
  try dsimp only
  repeat' split
  all_goals first | exact h | apply_rules (transparency := .reducible) [Tells.comparePublished]

theorem republish (h : Tells b₀ b) (sh : Shop) : Tells b₀ (b.republish sh) := by
  unfold Blocks.republish
  try dsimp only
  repeat' split
  all_goals first | exact h | apply_rules (transparency := .reducible) [Tells.onPlant, Tells.plantCompare]

theorem ledgerReport (h : Tells b₀ b) (sh : Shop) : Tells b₀ (b.ledgerReport sh) := by
  unfold Blocks.ledgerReport
  try dsimp only
  repeat' split
  all_goals first | exact h | apply_rules (transparency := .reducible) [Tells.onPlant, Tells.plantCompare]

theorem enterStandby (h : Tells b₀ b) (sh : Shop) : Tells b₀ (b.enterStandby sh) := by
  unfold Blocks.enterStandby
  try dsimp only
  repeat' split
  all_goals first | exact h | apply_rules (transparency := .reducible) [Tells.onPlant, Tells.withdraw, Tells.post]

theorem leaveStandby (h : Tells b₀ b) : Tells b₀ (b.leaveStandby) := by
  unfold Blocks.leaveStandby
  try dsimp only
  repeat' split
  all_goals first | exact h | apply_rules (transparency := .reducible) [Tells.onPlant]

theorem reportIntoStandby (h : Tells b₀ b) (sh : Shop) : Tells b₀ (b.reportIntoStandby sh) := by
  unfold Blocks.reportIntoStandby
  try dsimp only
  repeat' split
  all_goals first | exact h | apply_rules (transparency := .reducible) [Tells.onPlant, Tells.enterStandby,
      Tells.plantCompare]

theorem plantLive (h : Tells b₀ b) (sh : Shop) : Tells b₀ (b.plantLive sh) := by
  unfold Blocks.plantLive
  try dsimp only
  repeat' split
  all_goals first | exact h | apply_rules (transparency := .reducible) [Tells.enterStandby, Tells.plantCompare]

theorem plantCurrent (h : Tells b₀ b) (sh : Shop) : Tells b₀ (b.plantCurrent sh) := by
  unfold Blocks.plantCurrent
  try dsimp only
  repeat' split
  all_goals first | exact h | apply_rules (transparency := .reducible) [Tells.leaveStandby,
      Tells.reportIntoStandby, Tells.ledgerReport]

theorem budgetOutcome (h : Tells b₀ b) (v : Nat) (void : Option VoidReason) (sh : Shop) : Tells b₀ (b.budgetOutcome v
    void sh) := by
  unfold Blocks.budgetOutcome
  try dsimp only
  repeat' split
  all_goals first | exact h | apply_rules (transparency := .reducible) [Tells.onPlant, Tells.plantCompare,
      Tells.enterStandby, Tells.ledgerReport]

theorem rivalBudget (h : Tells b₀ b) (before : Replica) (sh : Shop) : Tells b₀ (b.rivalBudget before sh) := by
  unfold Blocks.rivalBudget
  try dsimp only
  repeat' split
  all_goals first | exact h | apply_rules (transparency := .reducible) [Tells.reportIntoStandby, Tells.ledgerReport]

theorem plantAbsent (h : Tells b₀ b) (before : Replica) (sh : Shop) : Tells b₀ (b.plantAbsent before sh) := by
  unfold Blocks.plantAbsent
  try dsimp only
  repeat' split
  all_goals first | exact h | apply_rules (transparency := .reducible) [Tells.leaveStandby, Tells.ledgerReport]

theorem plantWindow (h : Tells b₀ b) (flow : Nat) (sh : Shop) : Tells b₀ (b.plantWindow flow sh) := by
  unfold Blocks.plantWindow
  try dsimp only
  repeat' split
  all_goals first | exact h | apply_rules (transparency := .reducible) [Tells.onPlant, Tells.republish]

theorem testLoad (h : Tells b₀ b) (ma : Nat) : Tells b₀ (b.testLoad ma) := by
  unfold Blocks.testLoad
  dsimp only
  split
  · exact h
  · exact (h.onMeas (f := fun m => { m with derate := decide (700 < ma) }) ⟨rfl, rfl, rfl, rfl, rfl, rfl, rfl, rfl,
      rfl, rfl⟩).tellDerate

theorem testJam (h : Tells b₀ b) (ma : Nat) : Tells b₀ (b.testJam ma) := by
  unfold Blocks.testJam
  split
  · split
    · exact h.onMeas ⟨rfl, rfl, rfl, rfl, rfl, rfl, rfl, rfl, rfl, rfl⟩
    · exact h
  · exact h.onMeas ⟨rfl, rfl, rfl, rfl, rfl, rfl, rfl, rfl, rfl, rfl⟩

theorem testDry (h : Tells b₀ b) (mb : Nat) : Tells b₀ (b.testDry mb) := by
  unfold Blocks.testDry
  split
  · exact h.onMeas ⟨rfl, rfl, rfl, rfl, rfl, rfl, rfl, rfl, rfl, rfl⟩
  · split
    · exact h.onMeas ⟨rfl, rfl, rfl, rfl, rfl, rfl, rfl, rfl, rfl, rfl⟩
    · exact h

theorem cutterScan (h : Tells b₀ b) (ma mb : Nat) : Tells b₀ (b.cutterScan ma mb) := by
  unfold Blocks.cutterScan
  try dsimp only
  repeat' split
  all_goals first | exact h | apply_rules (transparency := .reducible) [Tells.testLoad, Tells.testJam, Tells.testDry]

theorem setPhase (h : Tells b₀ b) (ph : Phase) : Tells b₀ (b.setPhase ph) := by
  unfold Blocks.setPhase
  try dsimp only
  repeat' split
  all_goals first | exact h | apply_rules (transparency := .reducible) [Tells.setMem]

theorem offerJoin (h : Tells b₀ b) : Tells b₀ (b.offerJoin) := by
  unfold Blocks.offerJoin
  try dsimp only
  repeat' split
  all_goals first | exact h | apply_rules (transparency := .reducible) [Tells.setMem, Tells.offer]

theorem leaveMember (h : Tells b₀ b) : Tells b₀ (b.leaveMember) :=
  (h.onPres rfl rfl rfl).withdraw _ _

theorem tellLeft (h : Tells b₀ b) : Tells b₀ (b.tellLeft) := h.plannerLeaves.sawLeaves

theorem rejoinShop (h : Tells b₀ b) (gen : Word16) : Tells b₀ (b.rejoinShop gen) := by
  unfold Blocks.rejoinShop
  try dsimp only
  repeat' split
  all_goals first | exact h | apply_rules (transparency := .reducible) [Tells.leaveMember, Tells.post,
      Tells.offerJoin, Tells.tellLeft]

theorem beginWatch (h : Tells b₀ b) (sh : Shop) : Tells b₀ (b.beginWatch sh) := by
  unfold Blocks.beginWatch
  try dsimp only
  repeat' split
  all_goals first | exact h | apply_rules (transparency := .reducible) [Tells.onPres]

theorem enterMember (h : Tells b₀ b) (sh : Shop) : Tells b₀ (b.enterMember sh) := by
  unfold Blocks.enterMember
  try dsimp only
  repeat' split
  all_goals first | exact h | apply_rules (transparency := .reducible) [Tells.onPres, Tells.setSerial,
      Tells.beginWatch, Tells.post, Tells.plantLive, Tells.plannerEnters, Tells.askCheck]

theorem presenceCurrent (h : Tells b₀ b) (sh : Shop) : Tells b₀ (b.presenceCurrent sh) := by
  unfold Blocks.presenceCurrent
  try dsimp only
  repeat' split
  all_goals first | exact h | apply_rules (transparency := .reducible) [Tells.offerJoin, Tells.beginWatch,
      Tells.rejoinShop]

theorem plannerCurrent (h : Tells b₀ b) (sh : Shop) : Tells b₀ (b.plannerCurrent sh) := by
  unfold Blocks.plannerCurrent
  try dsimp only
  repeat' split
  all_goals first | exact h | apply_rules (transparency := .reducible) [Tells.rereadJobs, Tells.searchOrLook]

theorem becomeCurrent (h : Tells b₀ b) (before : Nat) (sh : Shop) : Tells b₀ (b.becomeCurrent before sh) := by
  unfold Blocks.becomeCurrent
  try dsimp only
  repeat' split
  all_goals first | exact h | apply_rules (transparency := .reducible) [Tells.clearAsks, Tells.setAskT,
      Tells.withdraw, Tells.post, Tells.grantReport, Tells.presenceCurrent, Tells.plantCurrent, Tells.plannerCurrent,
      Tells.askCheck, Tells.costCurrent]

theorem becomeStale (h : Tells b₀ b) (before : Nat) (frame : Word16) (sh : Shop) : Tells b₀ (b.becomeStale before
    frame sh) := by
  unfold Blocks.becomeStale
  try dsimp only
  repeat' split
  all_goals first | exact h | apply_rules (transparency := .reducible) [Tells.post, Tells.dropStream,
      Tells.grantReport, Tells.setSealT, Tells.ask]

theorem discarded (h : Tells b₀ b) (sh : Shop) (w : Waiter) : Tells b₀ (b.discarded sh w) := by
  unfold Blocks.discarded
  try dsimp only
  repeat' split
  all_goals first | exact h | apply_rules (transparency := .reducible) [Tells.post, Tells.plannerDiscarded,
      Tells.onCost]

theorem discardAll (h : Tells b₀ b) (sh : Shop) : Tells b₀ (b.discardAll sh) := by
  unfold Blocks.discardAll
  have k : Tells b₀ { b with line := b.line.emptied } :=
    h.onQueue ⟨rfl, rfl, rfl, rfl, rfl, rfl, rfl, rfl, rfl, rfl⟩ (fun x => x.emptied)
  exact foldl (fun x c m => m.discarded sh x) _ k

theorem enterMute (h : Tells b₀ b) (sh : Shop) : Tells b₀ (b.enterMute sh) := by
  unfold Blocks.enterMute
  dsimp only
  have k := ((h.onPres (f := fun p => { p with mem := .mute, listenT := none, askT := none, helloT := none })
    rfl rfl rfl).discardAll sh).setStream none
  refine k.trans ⟨rfl, rfl, rfl, rfl, rfl, rfl, rfl, rfl, rfl, rfl, rfl, ?_, Line.SameWire.refl _, Meas.SameReadings.refl
      _, id, id⟩
  simp

theorem duplicate (h : Tells b₀ b) (sh : Shop) : Tells b₀ (b.duplicate sh) := by
  unfold Blocks.duplicate
  split
  all_goals first | exact h | exact h.enterMute sh

theorem tellDuplicate (h : Tells b₀ b) (own : Bool) (f : Taken) (before : Blocks) :
    Tells b₀ (Blocks.tellDuplicate own f before b) := by
  unfold Blocks.tellDuplicate
  split
  · exact h.post _
  · exact h

theorem hear (h : Tells b₀ b) (s : Nat) : Tells b₀ (b.hear s) := by
  unfold Blocks.hear
  try dsimp only
  repeat' split
  all_goals first | exact h | apply_rules (transparency := .reducible) [Tells.onPres, Tells.withdraw]

theorem seenHead (h : Tells b₀ b) (sender target : Nat) : Tells b₀ (b.seenHead sender target) := by
  unfold Blocks.seenHead
  try dsimp only
  repeat' split
  all_goals first | exact h | apply_rules (transparency := .reducible) [Tells.hear, Tells.snapHeardNow,
      Tells.rivalSnap]

theorem streamNews (h : Tells b₀ b) (a : Applied) (sh : Shop) : Tells b₀ (b.streamNews a sh) := by
  unfold Blocks.streamNews
  try dsimp only
  repeat' split
  all_goals first | exact h | apply_rules (transparency := .reducible) [Tells.streamAfter]

theorem leaveNews (h : Tells b₀ b) (a : Applied) (sh : Shop) : Tells b₀ (b.leaveNews a sh) := by
  unfold Blocks.leaveNews
  split
  · exact (h.plantAbsent _ _).costAfter _ _
  · exact h

theorem presenceNews (h : Tells b₀ b) (a : Applied) (sh : Shop) : Tells b₀ (b.presenceNews a sh) := by
  unfold Blocks.presenceNews
  try dsimp only
  repeat' split
  all_goals first | exact h | apply_rules (transparency := .reducible) [Tells.enterMember, Tells.withdraw,
      Tells.rejoinShop]

theorem plantNews (h : Tells b₀ b) (a : Applied) (sh : Shop) : Tells b₀ (b.plantNews a sh) := by
  unfold Blocks.plantNews
  try dsimp only
  repeat' split
  all_goals first | exact h | apply_rules (transparency := .reducible) [Tells.budgetOutcome, Tells.rivalBudget,
      Tells.plantAbsent]

theorem sawNews (h : Tells b₀ b) (a : Applied) (sh : Shop) : Tells b₀ (b.sawNews a sh) := by
  unfold Blocks.sawNews
  try dsimp only
  repeat' split
  all_goals first | exact h | apply_rules (transparency := .reducible) [Tells.askCheck]

theorem plannerNews (h : Tells b₀ b) (a : Applied) (sh : Shop) : Tells b₀ (b.plannerNews a sh) := by
  unfold Blocks.plannerNews
  try dsimp only
  repeat' split
  all_goals first | exact h | apply_rules (transparency := .reducible) [Tells.claimOutcome, Tells.rivalClaim,
      Tells.releaseOutcome, Tells.reclaimOutcome, Tells.consumeOutcome, Tells.searchOrLook, Tells.jobLeft,
      Tells.search]

theorem figuresNews (h : Tells b₀ b) (a : Applied) : Tells b₀ (b.figuresNews a) := by
  unfold Blocks.figuresNews
  try dsimp only
  repeat' split
  all_goals first | exact h | apply_rules (transparency := .reducible) [Tells.onCost]

theorem costNews (h : Tells b₀ b) (a : Applied) (sh : Shop) : Tells b₀ (b.costNews a sh) := by
  unfold Blocks.costNews
  try dsimp only
  repeat' split
  all_goals first | exact h | apply_rules (transparency := .reducible) [Tells.reportOutcome, Tells.search,
      Tells.costAfter, Tells.zeroCheck]

theorem hostNews (h : Tells b₀ b) (a : Applied) : Tells b₀ (b.hostNews a) := by
  unfold Blocks.hostNews
  try dsimp only
  repeat' split
  all_goals first | exact h | apply_rules (transparency := .reducible) [Tells.post]

theorem tellAll (h : Tells b₀ b) (a : Applied) (grant : Nat) (sh : Shop) : Tells b₀ (b.tellAll a grant sh) := by
  unfold Blocks.tellAll
  try dsimp only
  repeat' split
  all_goals first | exact h | apply_rules (transparency := .reducible) [Tells.streamNews, Tells.grantReport,
      Tells.sawNews, Tells.leaveNews, Tells.presenceNews, Tells.plantNews, Tells.figuresNews, Tells.plannerNews, Tells.costNews,
      Tells.hostNews]

theorem takeSyncAsk (h : Tells b₀ b) (sender : Nat) (sh : Shop) : Tells b₀ (b.takeSyncAsk sender sh) := by
  unfold Blocks.takeSyncAsk
  try dsimp only
  repeat' split
  all_goals first | exact h | apply_rules (transparency := .reducible) [Tells.onAsking, Tells.startStream]

theorem buildBegun (h : Tells b₀ b) : Tells b₀ (b.buildBegun) := by
  unfold Blocks.buildBegun
  try dsimp only
  repeat' split
  all_goals first | exact h | apply_rules (transparency := .reducible) [Tells.restartAskT, Tells.withdraw,
      Tells.setPhase]

end Tells

end Sys2Proof.Machine
end

