-- ==== Sys2Proof/Laws/Slots.lean ====
section
/-! SUPPORT. Tables of slots: what setting, emptying and searching a slot do, and that each keeps the slots rising. -/

namespace Sys2Proof.Machine

variable {α : Type}

/-- Every slot of a table is at most `n`. -/
def Slots.upTo (n : Nat) (m : Slots α) : Prop := ∀ p ∈ m, p.1 ≤ n

/-- The slots rise strictly, as a chain over their numbers. -/
theorem Slots.wf_iff (m : Slots α) : Slots.wf m = true ↔ (m.map (·.1)).Pairwise (· < ·) := by
  induction m with
  | nil => simp [Slots.wf]
  | cons a rest ih =>
    cases rest with
    | nil => simp [Slots.wf]
    | cons b tail =>
      obtain ⟨i, x⟩ := a
      obtain ⟨j, y⟩ := b
      simp only [Slots.wf, Bool.and_eq_true, decide_eq_true_eq, ih, List.map_cons, List.pairwise_cons]
      constructor
      · rintro ⟨hij, hj, ht⟩
        refine ⟨?_, hj, ht⟩
        intro k hk
        simp only [List.mem_cons] at hk
        rcases hk with rfl | hk
        · exact hij
        · exact Nat.lt_trans hij (hj k hk)
      · rintro ⟨hi, hj, ht⟩
        exact ⟨hi j (by simp), hj, ht⟩

/-- A head slot lies below the slots after it. -/
theorem Slots.wf_cons {p : Nat × α} {m : Slots α} :
    Slots.wf (p :: m) = true ↔ (∀ q ∈ m, p.1 < q.1) ∧ Slots.wf m = true := by
  simp [Slots.wf_iff, List.pairwise_cons]

/-- What a slot holds is a member of the table. -/
theorem Slots.get_mem {k : Nat} {a : α} {m : Slots α} (h : Slots.get k m = some a) : (k, a) ∈ m := by
  induction m with
  | nil => simp [Slots.get] at h
  | cons p rest ih =>
    obtain ⟨j, x⟩ := p
    unfold Slots.get at h
    split at h
    · next hj => simp_all
    · simp [ih h]

/-- A slot that no record of the table has is empty. -/
theorem Slots.get_none {k : Nat} {m : Slots α} (h : ∀ p ∈ m, p.1 ≠ k) : Slots.get k m = none := by
  induction m with
  | nil => rfl
  | cons p rest ih =>
    obtain ⟨j, x⟩ := p
    have hj : j ≠ k := h (j, x) (by simp)
    simp [Slots.get, hj, ih (fun q hq => h q (by simp [hq]))]

/-- In a rising table a member stands at its slot. -/
theorem Slots.get_of_mem {k : Nat} {a : α} {m : Slots α} (hw : Slots.wf m = true) (h : (k, a) ∈ m) :
    Slots.get k m = some a := by
  induction m with
  | nil => simp at h
  | cons p rest ih =>
    obtain ⟨j, x⟩ := p
    obtain ⟨hlt, hrest⟩ := Slots.wf_cons.mp hw
    simp only [List.mem_cons, Prod.mk.injEq] at h
    rcases h with ⟨rfl, rfl⟩ | h
    · simp [Slots.get]
    · have : j < k := hlt (k, a) h
      simp [Slots.get, Nat.ne_of_lt this, ih hrest h]

/-- The members of a table after a slot is set. -/
theorem Slots.mem_set {k : Nat} {a : α} {m : Slots α} {p : Nat × α} (h : p ∈ Slots.set k a m) :
    p = (k, a) ∨ p ∈ m := by
  induction m with
  | nil => simp [Slots.set] at h; exact Or.inl h
  | cons q rest ih =>
    obtain ⟨j, b⟩ := q
    unfold Slots.set at h
    split at h
    · simp only [List.mem_cons] at h ⊢; tauto
    · split at h
      · simp only [List.mem_cons] at h ⊢; tauto
      · simp only [List.mem_cons] at h ⊢
        rcases h with h | h
        · tauto
        · rcases ih h with h | h <;> tauto

/-- Setting a slot keeps the slots rising. -/
theorem Slots.wf_set {k : Nat} {a : α} {m : Slots α} (h : Slots.wf m = true) : Slots.wf (Slots.set k a m) = true := by
  induction m with
  | nil => rfl
  | cons q rest ih =>
    obtain ⟨j, b⟩ := q
    obtain ⟨hlt, hrest⟩ := Slots.wf_cons.mp h
    unfold Slots.set
    split
    · next hk =>
      refine Slots.wf_cons.mpr ⟨?_, h⟩
      intro p hp
      simp only [List.mem_cons] at hp
      rcases hp with rfl | hp
      · exact hk
      · exact Nat.lt_trans hk (hlt p hp)
    · split
      · next _ hk => subst hk; exact Slots.wf_cons.mpr ⟨hlt, hrest⟩
      · refine Slots.wf_cons.mpr ⟨?_, ih hrest⟩
        intro p hp
        rcases Slots.mem_set hp with rfl | hp
        · simp only; omega
        · exact hlt p hp

/-- Setting a slot keeps the slots within a bound that the slot keeps. -/
theorem Slots.upTo_set {n k : Nat} {a : α} {m : Slots α} (h : Slots.upTo n m) (hk : k ≤ n) :
    Slots.upTo n (Slots.set k a m) := by
  intro p hp
  rcases Slots.mem_set hp with rfl | hp
  · exact hk
  · exact h p hp

/-- A filtered table still rises. -/
theorem Slots.wf_filter {f : Nat × α → Bool} {m : Slots α} (h : Slots.wf m = true) :
    Slots.wf (m.filter f) = true := by
  rw [Slots.wf_iff] at h ⊢
  rw [List.pairwise_map] at h ⊢
  exact h.filter _

/-- A filtered table keeps a bound. -/
theorem Slots.upTo_filter {n : Nat} {f : Nat × α → Bool} {m : Slots α} (h : Slots.upTo n m) :
    Slots.upTo n (m.filter f) := fun p hp => h p (List.mem_of_mem_filter hp)

/-- Emptying a slot keeps the slots rising. -/
theorem Slots.wf_erase {k : Nat} {m : Slots α} (h : Slots.wf m = true) : Slots.wf (Slots.erase k m) = true :=
  Slots.wf_filter h

/-- A change of the records leaves the slots where they are. -/
theorem Slots.wf_map {β : Type} {g : Nat × α → β} {m : Slots α} (h : Slots.wf m = true) :
    Slots.wf (m.map (fun p => (p.1, g p))) = true := by
  rw [Slots.wf_iff] at h ⊢
  simpa [List.map_map, Function.comp_def] using h

/-- A change of the records keeps a bound. -/
theorem Slots.upTo_map {β : Type} {n : Nat} {g : Nat × α → β} {m : Slots α} (h : Slots.upTo n m) :
    Slots.upTo n (m.map (fun p => (p.1, g p))) := by
  intro p hp
  obtain ⟨q, hq, rfl⟩ := List.mem_map.mp hp
  exact h q hq

/-- A change of the records that a test picks leaves the slots where they are. -/
theorem Slots.wf_update {t : α → Bool} {f : α → α} {m : Slots α} (h : Slots.wf m = true) :
    Slots.wf (Slots.update t f m) = true := Slots.wf_map (g := fun p => if t p.2 then f p.2 else p.2) h

/-- A change of the records that a test picks keeps a bound. -/
theorem Slots.upTo_update {n : Nat} {t : α → Bool} {f : α → α} {m : Slots α} (h : Slots.upTo n m) :
    Slots.upTo n (Slots.update t f m) := Slots.upTo_map (g := fun p => if t p.2 then f p.2 else p.2) h

/-- A slot that has been set reads as set. -/
theorem Slots.get_set_self (k : Nat) (a : α) (m : Slots α) : Slots.get k (Slots.set k a m) = some a := by
  induction m with
  | nil => simp [Slots.set, Slots.get]
  | cons q rest ih =>
    obtain ⟨j, b⟩ := q
    unfold Slots.set
    split
    · simp [Slots.get]
    · split
      · simp [Slots.get]
      · next h1 h2 =>
        have : j ≠ k := fun e => h2 e.symm
        simp [Slots.get, this, ih]

/-- Setting a slot leaves every other slot. -/
theorem Slots.get_set_other {j k : Nat} (a : α) (m : Slots α) (h : j ≠ k) :
    Slots.get j (Slots.set k a m) = Slots.get j m := by
  induction m with
  | nil => simp [Slots.set, Slots.get, Ne.symm h]
  | cons q rest ih =>
    obtain ⟨i, b⟩ := q
    unfold Slots.set
    split
    · simp [Slots.get, Ne.symm h]
    · split
      · next _ hk => subst hk; simp [Slots.get, Ne.symm h]
      · by_cases hi : i = j
        · simp [Slots.get, hi]
        · simp [Slots.get, hi, ih]

/-- An emptied slot is empty. -/
theorem Slots.get_erase_self (k : Nat) (m : Slots α) : Slots.get k (Slots.erase k m) = none := by
  apply Slots.get_none
  intro p hp
  have := (List.mem_filter.mp hp).2
  simpa using this

/-- A free slot found at or above `n` in a rising table whose slots start at `n` or above. -/
theorem Slots.freeFrom_spec (m : Slots α) : ∀ n, Slots.wf m = true → (∀ p ∈ m, n ≤ p.1) →
    n ≤ Slots.freeFrom n m ∧ Slots.get (Slots.freeFrom n m) m = none ∧
      ∀ j, n ≤ j → j < Slots.freeFrom n m → (Slots.get j m).isSome = true := by
  induction m with
  | nil => intro n _ _; simp [Slots.freeFrom, Slots.get]
  | cons q rest ih =>
    intro n hw hn
    obtain ⟨i, b⟩ := q
    obtain ⟨hlt, hrest⟩ := Slots.wf_cons.mp hw
    unfold Slots.freeFrom
    split
    · next hi =>
      subst hi
      obtain ⟨h1, h2, h3⟩ := ih (i + 1) hrest (fun p hp => hlt p hp)
      refine ⟨by omega, ?_, ?_⟩
      · have : i ≠ Slots.freeFrom (i + 1) rest := by omega
        simp [Slots.get, this, h2]
      · intro j hj1 hj2
        by_cases hji : i = j
        · simp [Slots.get, hji]
        · simp only [Slots.get, hji, if_false]
          exact h3 j (by omega) hj2
    · next hi =>
      have hi' : n < i := by
        have := hn (i, b) (by simp)
        simp only at this
        omega
      refine ⟨Nat.le_refl _, ?_, by intro j h1 h2; omega⟩
      apply Slots.get_none
      intro p hp
      simp only [List.mem_cons] at hp
      rcases hp with rfl | hp
      · simp only; omega
      · have := hlt p hp
        simp only at this
        omega

/-- The lowest-numbered empty slot: below the limit, empty, and every slot below it occupied (R70). -/
theorem Slots.lowestFree_spec {limit n : Nat} {m : Slots α} (hw : Slots.wf m = true)
    (h : Slots.lowestFree limit m = some n) :
    n < limit ∧ Slots.get n m = none ∧ ∀ j, j < n → (Slots.get j m).isSome = true := by
  unfold Slots.lowestFree at h
  split at h
  · next hlt =>
    obtain ⟨_, h2, h3⟩ := Slots.freeFrom_spec m 0 hw (fun p _ => Nat.zero_le _)
    simp only [Option.some.injEq] at h
    subst h
    exact ⟨hlt, h2, fun j hj => h3 j (Nat.zero_le _) hj⟩
  · simp at h

/-- The slot that a search finds free lies below the limit. -/
theorem Slots.lowestFree_lt {limit n : Nat} {m : Slots α} (h : Slots.lowestFree limit m = some n) : n < limit := by
  unfold Slots.lowestFree at h
  split at h <;> simp_all

/-- With no slot free below the limit, every slot below it is occupied (R70). -/
theorem Slots.lowestFree_none {limit : Nat} {m : Slots α} (hw : Slots.wf m = true)
    (h : Slots.lowestFree limit m = none) : ∀ j, j < limit → (Slots.get j m).isSome = true := by
  unfold Slots.lowestFree at h
  split at h
  · simp at h
  · next hge =>
    obtain ⟨_, _, h3⟩ := Slots.freeFrom_spec m 0 hw (fun p _ => Nat.zero_le _)
    intro j hj
    exact h3 j (Nat.zero_le _) (by omega)

/-- The record found at or above a slot stands there, and at or above it. -/
theorem Slots.atOrAbove_spec {k j : Nat} {a : α} {m : Slots α} (h : Slots.atOrAbove k m = some (j, a)) :
    k ≤ j ∧ (j, a) ∈ m := by
  unfold Slots.atOrAbove at h
  exact ⟨by simpa using List.find?_some h, List.mem_of_find?_eq_some h⟩

end Sys2Proof.Machine
end

