-- ==== Sys2Proof/Laws/Replica.lean ====
section
/-! SUPPORT. The tables of a replica: each judgment and each record put in keeps the slots rising and in range (R24,
R70), and the job numbers distinct and in range (R165, R166). -/

namespace Sys2Proof.Machine

/-- The tables keep to R24 and R70, clause by clause. -/
structure Replica.Sound (r : Replica) : Prop where
  slabs : Slots.wf r.slabs = true
  jobs : Slots.wf r.jobs = true
  slabTop : Slots.upTo 159 r.slabs
  jobTop : Slots.upTo 47 r.jobs

theorem Replica.sound_iff (r : Replica) : r.sound = true ↔ r.Sound := by
  unfold Replica.sound
  simp only [Bool.and_eq_true, List.all_eq_true, decide_eq_true_eq]
  exact ⟨fun ⟨⟨⟨h1, h2⟩, h3⟩, h4⟩ => ⟨h1, h2, h3, h4⟩, fun ⟨h1, h2, h3, h4⟩ => ⟨⟨⟨h1, h2⟩, h3⟩, h4⟩⟩

theorem Replica.blank_sound : Replica.blank.Sound :=
  ⟨rfl, rfl, by simp [Slots.upTo, Replica.blank], by simp [Slots.upTo, Replica.blank]⟩

namespace Replica.Sound

variable {r : Replica}

/-- A change that leaves both tables. -/
theorem same (h : r.Sound) {q : Replica} (h1 : q.slabs = r.slabs) (h2 : q.jobs = r.jobs) : q.Sound :=
  ⟨by rw [h1]; exact h.slabs, by rw [h2]; exact h.jobs, by rw [h1]; exact h.slabTop, by rw [h2]; exact h.jobTop⟩

theorem onSlab (h : r.Sound) (i : SlabId) (f : Slab → Slab) : (r.onSlab i f).Sound := by
  refine ⟨?_, h.jobs, ?_, h.jobTop⟩
  · exact Slots.wf_update (t := fun x => x.id == i) (f := f) h.slabs
  · exact Slots.upTo_update (t := fun x => x.id == i) (f := f) h.slabTop

theorem dropSlab (h : r.Sound) (i : SlabId) : (r.dropSlab i).Sound :=
  ⟨Slots.wf_filter h.slabs, h.jobs, Slots.upTo_filter h.slabTop, h.jobTop⟩

theorem onJob (h : r.Sound) (n : Nat) (f : Job → Job) : (r.onJob n f).Sound := by
  refine ⟨h.slabs, ?_, h.slabTop, ?_⟩
  · exact Slots.wf_update (t := fun x => x.number == n) (f := f) h.jobs
  · exact Slots.upTo_update (t := fun x => x.number == n) (f := f) h.jobTop

theorem setSlab (h : r.Sound) {n : Nat} (x : Slab) (hn : n ≤ 159) : { r with slabs := Slots.set n x r.slabs }.Sound :=
  ⟨Slots.wf_set h.slabs, h.jobs, Slots.upTo_set h.slabTop hn, h.jobTop⟩

theorem setJob (h : r.Sound) {n : Nat} (x : Job) (hn : n ≤ 47) : { r with jobs := Slots.set n x r.jobs }.Sound :=
  ⟨h.slabs, Slots.wf_set h.jobs, h.slabTop, Slots.upTo_set h.jobTop hn⟩

theorem leave (h : r.Sound) (c : Ctx) (s : Nat) : (r.leave c s).Sound := by
  unfold Replica.leave
  exact ⟨Slots.wf_map (m := r.slabs) (g := fun p => p.2.orphan s) h.slabs,
    Slots.wf_map (m := r.jobs) (g := fun p => p.2.strike s c.gen true) h.jobs,
    Slots.upTo_map (m := r.slabs) (g := fun p => p.2.orphan s) h.slabTop,
    Slots.upTo_map (m := r.jobs) (g := fun p => p.2.strike s c.gen true) h.jobTop⟩

/-- An inserted record takes a slot below the limit, or none (R70, R42). -/
theorem insertSlab (h : r.Sound) {c : Ctx} (hc : c.slabLimit ≤ 160) {x : Slab} {q : Replica} {n : Option Nat}
    (e : r.insertSlab c x = some (q, n)) : q.Sound := by
  unfold Replica.insertSlab at e
  split at e
  · next m hm =>
    simp only [Option.some.injEq, Prod.mk.injEq] at e
    have := Slots.lowestFree_lt hm
    rw [← e.1]
    exact h.setSlab x (by omega)
  · split at e
    · simp at e
    · simp only [Option.some.injEq, Prod.mk.injEq] at e
      rw [← e.1]
      exact h.same rfl rfl

theorem recordRemnants {c : Ctx} (hc : c.slabLimit ≤ 160) (s : Nat) (p : Slab) :
    ∀ (ms : List Remnant) {r : Replica} (area lost : Nat) (news : List SlabId), r.Sound →
      (Machine.recordRemnants c s p ms r area lost news).1.Sound := by
  intro ms
  induction ms with
  | nil => intro r _ _ _ h; exact h
  | cons m rest ih =>
    intro r area lost news h
    unfold Machine.recordRemnants
    dsimp only
    split
    · exact ih _ _ _ h
    · split
      · exact ih _ _ _ h
      · next q n e => exact ih _ _ _ (h.insertSlab hc e)

end Replica.Sound

theorem oldestClosed_mem {gen : Word16} {m : Slots Job} {n a : Nat} (h : oldestClosed gen m = some (n, a)) :
    ∃ x, (n, x) ∈ m := by
  induction m generalizing n a with
  | nil => simp [oldestClosed] at h
  | cons p rest ih =>
    obtain ⟨slot, x⟩ := p
    unfold oldestClosed at h
    split at h
    · split at h
      · simp only [Option.some.injEq, Prod.mk.injEq] at h; exact ⟨x, by simp [h.1]⟩
      · simp at h
    · next s2 a2 e2 =>
      split at h
      · simp only [Option.some.injEq, Prod.mk.injEq] at h; exact ⟨x, by simp [h.1]⟩
      · simp only [Option.some.injEq, Prod.mk.injEq] at h
        obtain ⟨y, hy⟩ := ih e2
        exact ⟨y, by simp [← h.1, hy]⟩

/-- A judgment keeps the tables (R26, R70). -/
theorem Replica.Sound.judge {r : Replica} (h : r.Sound) {c : Ctx} (hs : c.slabLimit ≤ 160) (hj : c.jobLimit ≤ 48)
    (s : Nat) (ch : Change) : (Machine.judge c s ch r).rep.Sound := by
  cases ch <;> simp only [Machine.judge]
  case budget v =>
    unfold judgeBudget
    repeat' split
    all_goals first | exact h | exact h.same rfl rfl
  case flowAsk q =>
    unfold judgeFlowAsk
    dsimp only
    split
    · exact h.same rfl rfl
    · exact h
  case flowDrop =>
    unfold judgeFlowDrop
    split
    · exact h
    · exact h.same rfl rfl
  case join role =>
    unfold judgeJoin
    dsimp only
    split
    · exact (h.leave c s).same rfl rfl
    · exact h.same rfl rfl
  case gone n =>
    unfold judgeGone
    split
    · exact h.leave c n
    · exact h
  case slabAdd =>
    unfold judgeSlabAdd
    split
    · exact h
    · split
      · exact h
      · next q n e => exact h.insertSlab hs e
  case claim i =>
    unfold judgeClaim
    repeat' split
    all_goals first | exact h | exact h.onSlab _ _
  case release i =>
    unfold judgeRelease
    repeat' split
    all_goals first | exact h | exact h.onSlab _ _
  case reclaim i =>
    unfold judgeReclaim
    repeat' split
    all_goals first | exact h | exact h.onSlab _ _
  case consume i ab total ms =>
    unfold judgeConsume
    split
    · exact h
    · next x _ =>
      split
      · exact Replica.Sound.recordRemnants hs s x ms 0 0 [] (h.dropSlab i)
      · exact h
  case scrap i =>
    unfold judgeScrap
    repeat' split
    all_goals first | exact h | exact h.dropSlab _
  case freeOrphan i =>
    unfold judgeFreeOrphan
    repeat' split
    all_goals first | exact h | exact h.onSlab _ _
  case jobOpen n =>
    unfold judgeJobOpen
    split
    · split
      · exact h.onJob _ _
      · exact h
    · split
      · next m hm =>
        have := Slots.lowestFree_lt hm
        exact h.setJob _ (by omega)
      · split
        · split
          · next m a e =>
            obtain ⟨x, hx⟩ := oldestClosed_mem e
            exact h.setJob _ (h.jobTop _ hx)
          · exact h
        · exact h.same rfl rfl
  case jobClose n =>
    unfold judgeJobClose
    split
    · exact h.onJob _ _
    · exact h
  case costReport n t =>
    unfold judgeCostReport
    repeat' split
    all_goals first | exact h | exact h.onJob _ _

/-- A record's slot is one of its table's. -/
def Record.inTable : Record → Prop
  | .slab slot _ => slot ≤ 159
  | .job slot _ => slot ≤ 47
  | .member _ | .head .. | .entry _ | .fin .. => True

/-- A record that passes the check of R198 names a slot of its table. -/
theorem Record.ofBytes_inTable {l : List Byte} {rec : Record} (h : Record.ofBytes l = some rec) : rec.inTable := by
  cases l with
  | nil => simp [Record.ofBytes] at h
  | cons t rest =>
    unfold Record.ofBytes at h
    repeat' split at h
    all_goals
      first
        | (simp only [Option.some.injEq] at h; subst h; trivial)
        | (simp at h; done)
        | (simp only [Option.map_eq_some_iff] at h; obtain ⟨_, _, rfl⟩ := h; assumption)

/-- A record put in keeps the tables (R39, R42). -/
theorem Replica.Sound.put {r : Replica} (h : r.Sound) {rec : Record} (hr : rec.inTable) : (r.put rec).Sound := by
  cases rec <;> simp only [Replica.put]
  case member m => exact h.same rfl rfl
  case head => exact h.same rfl rfl
  case entry => exact h.same rfl rfl
  case slab slot x => exact (h.dropSlab x.id).setSlab x hr
  case job slot x =>
    exact ⟨h.slabs, Slots.wf_set (Slots.wf_filter h.jobs), h.slabTop, Slots.upTo_set (Slots.upTo_filter h.jobTop) hr⟩
  case fin => exact h

/-! ## The job numbers (R165, R166) -/

/-- The numbers of the job records held, settled or not. -/
abbrev Replica.jobNumbers (r : Replica) : List Nat := r.allJobs.map (·.number)

/-- The job numbers keep to R165 and R166, clause by clause. -/
structure Replica.JobLaw (r : Replica) : Prop where
  distinct : r.jobNumbers.Nodup
  range : ∀ n ∈ r.jobNumbers, within 1 65535 n = true

theorem Replica.jobLaw_iff (r : Replica) : r.jobLaw = true ↔ r.JobLaw := by
  unfold Replica.jobLaw
  simp only [Bool.and_eq_true, List.all_eq_true, decide_eq_true_eq]
  exact ⟨fun ⟨h1, h2⟩ => ⟨h1, fun n hn => by obtain ⟨x, hx, rfl⟩ := List.mem_map.mp hn; exact h2 x hx⟩,
    fun h => ⟨h.distinct, fun x hx => h.range _ (List.mem_map_of_mem hx)⟩⟩

theorem Replica.blank_jobLaw : Replica.blank.JobLaw :=
  ⟨List.nodup_nil, fun _ h => nomatch h⟩

/-- A record put into a slot brings its own number at most, beside those held. -/
theorem Slots.set_numbers (k : Nat) (x : Job) (m : Slots Job) :
    ((Slots.set k x m).map (·.2.number)).Subperm (x.number :: m.map (·.2.number)) := by
  induction m with
  | nil => exact List.Subperm.refl _
  | cons p rest ih =>
    obtain ⟨j, b⟩ := p
    unfold Slots.set
    split
    · exact List.Subperm.refl _
    · split
      · exact ((List.sublist_cons_self b.number _).cons_cons x.number).subperm
      · exact ((List.subperm_cons b.number).mpr ih).trans (List.Perm.swap x.number b.number _).subperm

theorem Replica.jobNumbers_eq (r : Replica) :
    r.jobNumbers = r.jobs.map (·.2.number) ++ r.looseJobs.map (·.number) := by
  simp only [jobNumbers, allJobs, List.map_append, List.map_map, Function.comp_def]

/-- A number that no record of the replica has is none of its job numbers. -/
theorem Replica.job?_none {r : Replica} {n : Nat} (h : r.job? n = none) : n ∉ r.jobNumbers := by
  unfold Replica.job? Replica.findJob at h
  split at h
  · simp at h
  · next e =>
    simp only [Option.map_map, Option.map_eq_none_iff, List.find?_eq_none, beq_iff_eq] at e h
    rw [r.jobNumbers_eq]
    simp only [List.mem_append, List.mem_map, not_or, not_exists, not_and]
    exact ⟨fun p hp he => e p hp he, fun x hx he => h x hx he⟩

namespace Replica.JobLaw

variable {r q : Replica}

/-- A change that brings no number. -/
theorem fewer (h : r.JobLaw) (e : q.jobNumbers.Subperm r.jobNumbers) : q.JobLaw :=
  ⟨by
    rw [List.nodup_iff_count_le_one]
    exact fun a => (e.count_le a).trans (List.nodup_iff_count_le_one.mp h.distinct a),
    fun n hn => h.range n (e.subset hn)⟩

theorem same (h : r.JobLaw) (e : q.jobNumbers = r.jobNumbers) : q.JobLaw := h.fewer (e ▸ List.Subperm.refl _)

/-- A change that leaves the job table. -/
theorem keeps (h : r.JobLaw) (e1 : q.jobs = r.jobs) (e2 : q.looseJobs = r.looseJobs) : q.JobLaw :=
  h.same (by rw [Replica.jobNumbers_eq, Replica.jobNumbers_eq, e1, e2])

/-- A change that brings one new number in range. -/
theorem brings (h : r.JobLaw) {n : Nat} (hn : n ∉ r.jobNumbers) (hr : within 1 65535 n = true)
    (e : q.jobNumbers.Subperm (n :: r.jobNumbers)) : q.JobLaw := by
  have hd : (n :: r.jobNumbers).Nodup := List.nodup_cons.mpr ⟨hn, h.distinct⟩
  refine ⟨?_, fun m hm => ?_⟩
  · rw [List.nodup_iff_count_le_one] at hd ⊢
    exact fun a => (e.count_le a).trans (hd a)
  · rcases List.mem_cons.mp (e.subset hm) with rfl | hm
    · exact hr
    · exact h.range m hm

theorem onJob (h : r.JobLaw) {n : Nat} {f : Job → Job} (hf : ∀ x, x.number = n → (f x).number = n) :
    (r.onJob n f).JobLaw := by
  have one (x : Job) : (if x.number == n then f x else x).number = x.number := by
    split
    · next e => rw [beq_iff_eq] at e; rw [hf x e, e]
    · rfl
  refine h.same ?_
  simp only [Replica.jobNumbers_eq, Replica.onJob, Slots.update, List.map_map, Function.comp_def, one]

theorem setJob (h : r.JobLaw) {x : Job} (k : Nat) (hn : x.number ∉ r.jobNumbers)
    (hr : within 1 65535 x.number = true) : { r with jobs := Slots.set k x r.jobs }.JobLaw := by
  refine h.brings hn hr ?_
  rw [Replica.jobNumbers_eq, Replica.jobNumbers_eq]
  exact (List.subperm_append_right _).mpr (Slots.set_numbers k x r.jobs)

theorem leave (h : r.JobLaw) (c : Ctx) (s : Nat) : (r.leave c s).JobLaw := by
  have one (x : Job) : (x.strike s c.gen true).number = x.number := by unfold Job.strike; split <;> rfl
  refine h.same ?_
  simp only [Replica.jobNumbers_eq, Replica.leave, List.map_map, Function.comp_def, one]

theorem insertSlab (h : r.JobLaw) {c : Ctx} {x : Slab} {n : Option Nat} (e : r.insertSlab c x = some (q, n)) :
    q.JobLaw := by
  unfold Replica.insertSlab at e
  repeat' split at e
  all_goals
    first
      | (simp at e; done)
      | (simp only [Option.some.injEq, Prod.mk.injEq] at e; rw [← e.1]; exact h.keeps rfl rfl)

theorem recordRemnants {c : Ctx} (s : Nat) (p : Slab) :
    ∀ (ms : List Remnant) {r : Replica} (area lost : Nat) (news : List SlabId), r.JobLaw →
      (Machine.recordRemnants c s p ms r area lost news).1.JobLaw := by
  intro ms
  induction ms with
  | nil => intro r _ _ _ h; exact h
  | cons m rest ih =>
    intro r area lost news h
    unfold Machine.recordRemnants
    dsimp only
    split
    · exact ih _ _ _ h
    · split
      · exact ih _ _ _ h
      · next q n e => exact ih _ _ _ (h.insertSlab e)

end Replica.JobLaw

/-- A judgment keeps the job numbers, where a JOB_OPEN names one in range (R26, R166). -/
theorem Replica.JobLaw.judge {r : Replica} (h : r.JobLaw) (c : Ctx) (s : Nat) {ch : Change}
    (hc : ∀ n, ch = .jobOpen n → within 1 65535 n = true) : (Machine.judge c s ch r).rep.JobLaw := by
  cases ch <;> simp only [Machine.judge]
  case join role =>
    unfold judgeJoin
    dsimp only
    split
    · exact (h.leave c s).keeps rfl rfl
    · exact h.keeps rfl rfl
  case gone n =>
    unfold judgeGone
    split
    · exact h.leave c n
    · exact h
  case slabAdd =>
    unfold judgeSlabAdd
    split
    · exact h
    · split
      · exact h
      · next e => exact h.insertSlab e
  case consume i ab total ms =>
    unfold judgeConsume
    split
    · exact h
    · next x _ =>
      split
      · exact Replica.JobLaw.recordRemnants s x ms 0 0 [] (h.keeps rfl rfl)
      · exact h
  case jobOpen n =>
    have hr := hc n rfl
    unfold judgeJobOpen
    split
    · split
      · exact h.onJob (fun _ _ => rfl)
      · exact h
    · next e =>
      have hn := Replica.job?_none e
      split
      · exact h.setJob (x := freshJob n s) _ hn hr
      · split
        · split
          · exact h.setJob (x := freshJob n s) _ hn hr
          · exact h
        · refine h.brings hn hr ?_
          simp only [takenAs, Replica.jobNumbers_eq, List.map_append, ← List.append_assoc, List.map_cons, List.map_nil]
          exact (List.perm_append_singleton _ _).subperm
  case jobClose n =>
    unfold judgeJobClose
    split
    · exact h.onJob (fun _ e => e)
    · exact h
  case costReport n t =>
    unfold judgeCostReport
    repeat' split
    all_goals first | exact h | exact h.onJob (fun y e => by unfold Job.strike; split <;> exact e)
  all_goals
    first
      | unfold judgeBudget | unfold judgeFlowAsk | unfold judgeFlowDrop | unfold judgeClaim | unfold judgeRelease
      | unfold judgeReclaim | unfold judgeScrap | unfold judgeFreeOrphan
  all_goals try dsimp only
  all_goals repeat' split
  all_goals first | exact h | exact h.keeps rfl rfl

/-- A two-byte field is at most 65535. -/
theorem be16_le (a b : Byte) : be16 a b ≤ 65535 := by
  have := a.isLt
  have := b.isLt
  unfold be16
  omega

/-- The job number of a JOB_OPEN that passes the payload step (R197). -/
theorem parseChange_jobOpen {k : Kind} {p : List Byte} {n : Nat} (h : parseChange k p = some (.jobOpen n)) :
    within 1 65535 n = true := by
  cases k <;> simp only [parseChange, Option.map_eq_some_iff] at h
  case jobOpen =>
    obtain ⟨m, hm, e⟩ := h
    cases e
    unfold jobPayload at hm
    repeat' split at hm
    all_goals
      first
        | (simp at hm; done)
        | (simp only [Option.some.injEq] at hm; subst hm; simp only [within, Bool.and_eq_true, decide_eq_true_eq]
           exact ⟨by omega, be16_le _ _⟩)
  all_goals repeat' split at h
  all_goals simp at h

/-- A judged payload keeps the job numbers (R26, R72, R166). -/
theorem Replica.JobLaw.judgeFrame {r : Replica} (h : r.JobLaw) (c : Ctx) (s : Nat) (k : Kind) (p : List Byte) :
    (Machine.judgeFrame c s k p r).rep.JobLaw := by
  unfold Machine.judgeFrame
  split
  · exact h
  · next e => exact h.judge c s (fun n hn => parseChange_jobOpen (hn ▸ e))

/-- The job number of a JOB record that passes the check of R198. -/
theorem Record.ofBytes_jobNumber {l : List Byte} {k : Nat} {x : Job} (h : Record.ofBytes l = some (.job k x)) :
    within 1 65535 x.number = true := by
  have body {b : List Byte} (e : Job.ofBody b = some x) : within 1 65535 x.number = true := by
    unfold Job.ofBody at e
    split at e
    · split at e
      · simp at e
      · split at e
        · next hc =>
          simp only [Bool.and_eq_true, decide_eq_true_eq] at hc
          simp only [Option.some.injEq] at e
          subst e
          simp only [within, Bool.and_eq_true, decide_eq_true_eq]
          exact ⟨by omega, be16_le _ _⟩
        · simp at e
    · simp at e
  cases l with
  | nil => simp [Record.ofBytes] at h
  | cons t rest =>
    unfold Record.ofBytes at h
    repeat' split at h
    all_goals
      first
        | (simp at h; done)
        | (simp only [Option.map_eq_some_iff] at h
           obtain ⟨y, hy, e⟩ := h
           cases e
           exact body hy)

/-- A record put in keeps the job numbers, where a JOB record's is in range (R42, R198). -/
theorem Replica.JobLaw.put {r : Replica} (h : r.JobLaw) {rec : Record}
    (hr : ∀ k x, rec = .job k x → within 1 65535 x.number = true) : (r.put rec).JobLaw := by
  cases rec <;> simp only [Replica.put]
  case job slot x =>
    let q : Replica :=
      { r with
        jobs := r.jobs.filter (fun p => p.2.number != x.number)
        looseJobs := r.looseJobs.filter (fun y => y.number != x.number) }
    have hq : q.JobLaw := h.fewer (by
      rw [Replica.jobNumbers_eq, Replica.jobNumbers_eq]
      exact (List.Sublist.append (List.filter_sublist.map _) (List.filter_sublist.map _)).subperm)
    refine Replica.JobLaw.setJob (r := q) hq slot ?_ (hr slot x rfl)
    rw [Replica.jobNumbers_eq]
    simp [q]
  all_goals first | exact h | exact h.keeps rfl rfl

end Sys2Proof.Machine
end

