-- ==== Sys2Proof/Laws/Requests.lean ====
section
/-! SUPPORT. The two-byte fields of a host request (R194, R199). -/

namespace Sys2Proof

/-- A two-byte field is read back from its bytes (R194). -/
@[simp] theorem word16_extract (w : Word16) : word16 (w.extractLsb' 8 8) (w.extractLsb' 0 8) = w := by
  unfold word16
  apply BitVec.eq_of_toNat_eq
  rw [BitVec.toNat_append, BitVec.extractLsb'_toNat, BitVec.extractLsb'_toNat,
    ← Nat.shiftLeft_add_eq_or_of_lt (by omega)]
  have := w.isLt
  simp only [Nat.shiftLeft_eq, Nat.shiftRight_eq_div_pow]
  omega

end Sys2Proof
end

