-- ==== Sys2Proof/Laws/Wire.lean ====
section
/-! SUPPORT. The line controller's own steps (01): the sendings' starts and ends keep the outbound queue and the notice
queue sound, and an entry in emission is found again. -/

namespace Sys2Proof.Machine

/-- Both queues stay sound, and no REJOIN comes to be pending. -/
structure Keeps (a b : Blocks) : Prop where
  line : a.line.Sound → b.line.Sound
  host : a.host.sound = true → b.host.sound = true
  rejoin : b.host.rejoinPending = true → a.host.rejoinPending = true

theorem Tells.keeps {a b : Blocks} (h : Tells a b) : Keeps a b := ⟨h.line, h.host, h.rejoin⟩

namespace Keeps

variable {a b c : Blocks}

theorem refl (a : Blocks) : Keeps a a := ⟨id, id, id⟩

theorem trans (h : Keeps a b) (k : Keeps b c) : Keeps a c :=
  ⟨fun x => k.line (h.line x), fun x => k.host (h.host x), fun x => h.rejoin (k.rejoin x)⟩

/-- A move told as news, after the others. -/
theorem told (h : Keeps a b) (k : Tells b c) : Keeps a c := h.trans k.keeps

/-- A change of the line that keeps the queue sound. -/
theorem onLine (h : Keeps a b) {f : Line → Line} (hs : b.line.Sound → (f b.line).Sound) : Keeps a (b.onLine f) :=
  h.trans ⟨hs, id, id⟩

end Keeps

/-! ## Starting -/

theorem emitFirst_length (sh : Shop) (l : List OutEntry) : (emitFirst sh l).length = l.length := by
  induction l with
  | nil => rfl
  | cons e rest ih =>
    unfold emitFirst
    split <;> simp [ih]

/-- With no entry in emission before, the start puts at most one there (R13). -/
theorem emitFirst_one (sh : Shop) {l : List OutEntry} (h : l.find? (·.inEmission) = none) :
    ((emitFirst sh l).filter (·.inEmission)).length ≤ 1 := by
  induction l with
  | nil => simp [emitFirst]
  | cons e rest ih =>
    simp only [List.find?_cons] at h
    split at h
    · simp at h
    · next he =>
      unfold emitFirst
      split
      · have : rest.filter (·.inEmission) = [] := by
          rw [List.filter_eq_nil_iff]
          rw [List.find?_eq_none] at h
          exact h
        simp [this]
      · simpa [List.filter_cons, he] using ih h

/-- The start of a sending keeps the queue sound (R16). -/
theorem Keeps.transmit (sh : Shop) (b : Blocks) : Keeps b (b.transmit sh) := by
  unfold Blocks.transmit
  split
  · next hm =>
    split
    · exact Keeps.refl b
    · refine (Keeps.refl b).onLine ?_
      intro h
      have hn : b.line.queue.find? (·.inEmission) = none := by
        simp only [Blocks.mayTransmit, Bool.and_eq_true, Line.emitting, Option.isNone_iff_eq_none] at hm
        exact hm.2
      refine ⟨by simpa [emitFirst_length] using h.len, emitFirst_one sh hn, h.fails, ?_, h.behind⟩
      rcases h.waits with hw | hw
      · exact Or.inl hw
      · exact Or.inr (by simpa [emitFirst_length] using hw)
  · exact Keeps.refl b

/-! ## Ending -/

theorem Keeps.sendFailed (x : Attempt) (b : Blocks) : Keeps b (b.sendFailed x) := by
  unfold Blocks.sendFailed
  split
  · next hf =>
    exact (Keeps.refl b).onLine (fun h => ⟨h.len, h.one, by simp only; omega, h.waits, h.behind⟩)
  · exact ((Keeps.refl b).onLine (fun h => ⟨h.len, h.one, by simp, h.waits, h.behind⟩)).told ((Tells.refl _).post _)

theorem Keeps.afterAttempt (x : Attempt) (e : OutEntry) (sh : Shop) (b : Blocks) :
    Keeps b (b.afterAttempt x e sh) := by
  unfold Blocks.afterAttempt
  repeat' split
  all_goals first
    | exact Keeps.refl b
    | exact ((Tells.refl b).refreshStream sh).keeps
    | exact (Tells.refl b).withdrawRebase.keeps
    | exact (((Tells.refl b).withdraw _ _).plantCompare sh).keeps
    | exact ((Tells.refl b).plantCompare sh).keeps

/-- The end of an attempt keeps both queues sound (R17, R18). -/
theorem Keeps.attemptEnds (x : Attempt) (sh : Shop) (b : Blocks) : Keeps b (b.attemptEnds x sh) := by
  unfold Blocks.attemptEnds
  split
  · exact Keeps.refl b
  · have h0 : Keeps b (b.onLine Line.backToWaiting) := (Keeps.refl b).onLine (fun h => h.backToWaiting)
    dsimp only
    refine Keeps.trans ?_ (Keeps.afterAttempt _ _ _ _)
    split
    · exact h0
    · exact h0.trans (Keeps.sendFailed _ _)

/-- The completion of an attempt keeps both queues sound (R19). -/
theorem Keeps.completes (sh : Shop) (b : Blocks) : Keeps b (b.completes sh) := by
  unfold Blocks.completes
  split
  · exact Keeps.refl b
  · next e _ =>
    have h0 : ∀ d : Option Kind, Keeps b (b.onLine (fun l =>
        { l.dropEmitted with failures := 0, yielding := true, txDone := d })) := fun d =>
      (Keeps.refl b).onLine (fun h =>
        ⟨h.dropEmitted.len, h.dropEmitted.one, by simp, h.dropEmitted.waits, h.dropEmitted.behind⟩)
    have h1 : ∀ d : Option Kind, Keeps b (b.onLine (fun l =>
        { l.dropEmitted with failures := 0, yielding := true, txDone := d })).ownCompleted := fun d => by
      unfold Blocks.ownCompleted
      split
      · exact (h0 d).told ((Tells.refl _).onPres rfl rfl rfl)
      · exact h0 d
    have h2 : ∀ c : Blocks, Keeps c (c.askSent sh) := fun c => by
      unfold Blocks.askSent
      split
      · exact Keeps.refl c
      · exact ((Tells.refl c).restartAskT).keeps
    dsimp only
    cases e.frame.kind <;> first
      | exact h1 _
      | exact (h1 _).trans (h2 _)
      | exact (h1 _).told ((Tells.refl _).snapCompleted sh _)

/-- The HALT break keeps both queues sound (R21). -/
theorem Keeps.haltBreak (sh : Shop) (b : Blocks) : Keeps b (b.haltBreak sh) := by
  unfold Blocks.haltBreak
  have h0 : Keeps b (b.onLine (fun l => { l with halting := true, idle := false })) :=
    (Keeps.refl b).onLine (fun h => ⟨h.len, h.one, h.fails, h.waits, h.behind⟩)
  repeat' split
  all_goals first
    | exact Keeps.refl b
    | exact h0.trans (Keeps.attemptEnds _ _ _)

/-- The receiver's states and flags are no part of the queue. -/
theorem Line.Sound.ofQueue {l m : Line} (h : l.Sound) (h1 : m.queue = l.queue) (h2 : m.waitList = l.waitList)
    (h3 : m.backlog = l.backlog) (h4 : m.failures = l.failures) : m.Sound :=
  ⟨by rw [h1]; exact h.len, by rw [h1]; exact h.one, by rw [h4]; exact h.fails, by rw [h1, h2]; exact h.waits,
    by rw [h2, h3]; exact h.behind⟩

/-- An entry in emission is one of the queue's. -/
theorem Line.emitting_mem {l : Line} {e : OutEntry} (h : l.emitting = some e) : e ∈ l.queue ∧ e.inEmission = true :=
  ⟨List.mem_of_find?_eq_some h, List.find?_some h⟩

end Sys2Proof.Machine
end

