-- ==== Sys2Proof/Tests/Slice0.lean ====
section
/-! SUPPORT. Small tests: the ill-formed commands that the check refuses, and for each statement of the certificates
concrete states and operands that meet its hypotheses, clause by clause, each with a piece of what the command does
there. -/

namespace Sys2Proof.Tests

open Sys2Proof.Machine

/-! ## The check of well-formedness -/

theorem test_wf_refuses_sender_zero : (Instr.budget 0 0 [0, 0]).wf = false := by decide

theorem test_wf_refuses_a_payload_of_41 : (Instr.hello 3 0 (List.replicate 41 0)).wf = false := by decide

theorem test_wf_takes_a_payload_of_40 : (Instr.hello 3 0 (List.replicate 40 0)).wf = true := by decide

theorem test_wf_refuses_snap_to_zero : (Instr.snap 3 0 0 []).wf = false := by decide

theorem test_wf_refuses_silent_zero : (Instr.memberSilent 0).wf = false := by decide

theorem test_wf_refuses_a_good_request_as_bad : (Instr.badRequest 1 0).wf = false ∧ (Instr.badRequest 1 1).wf = true ∧
    (Instr.badRequest 0x18 0).wf = true := by decide

/-! ## States to start from -/

/-- The state after a command. -/
def runs (c : Instr) (s : State) : State :=
  match exec c s with
  | .next t => t
  | .fault _ => s
  | .refused _ => s

/-- A FREE sheet of station 1. -/
def freeSlab : Slab :=
  { id := { origin := 1, serial := 1 }, kind := .sheet, parent := none, material := 7, thickness := 20, length := 3000
    width := 1500, rack := 4, rate := 50, state := .free, holder := none }

/-- A slab of station 3 that it holds. -/
def heldSlab : Slab :=
  { id := { origin := 3, serial := 9 }, kind := .remnant, parent := some { origin := 1, serial := 2 }, material := 7
    thickness := 30, length := 1000, width := 800, rack := 5, rate := 60, state := .claimed, holder := some 3 }

/-- A slab orphaned by station 5. -/
def lostSlab : Slab := { freeSlab with id := { origin := 1, serial := 3 }, state := .orphaned, holder := some 5 }

/-- A job record. -/
def aJob (n : Nat) (st : JobState) (pending : List Nat) (closing : Option Word16) : Job :=
  { number := n, state := st, opener := 1, closer := none, pending := pending, short := false, closing := closing
    tally := Tally.zero }

/-- A shop of a plant and two cutters. -/
def aShop : Shop :=
  { state := .current, gen := 7, build := none
    rep :=
      { members := [{ station := 1, role := .plant }, { station := 3, role := .cutter }, { station := 5, role := .cutter }]
        ledger :=
          { budget := 1000, plant := some 1
            entries := [{ station := 3, asked := 500, granted := 500 }, { station := 5, asked := 600, granted := 500 }] }
        slabs := [(0, freeSlab), (2, heldSlab), (3, lostSlab)]
        jobs := [(0, aJob 10 .opened [] none), (1, aJob 11 .closing [3, 5] none), (2, aJob 12 .closed [] (some 3))]
        looseSlabs := [], looseJobs := [] } }

/-- A member of that shop, with a request on its way. -/
def aMember (station : Nat) (role : Role) : State :=
  { State.reset with
    dev.shop := aShop
    dev.blk.pres :=
      { station := station, role := role, rate := 1, mem := .member, listenT := none, askT := none, helloT := some 1000
        heard := [(5, 40)], serial := 1 }
    dev.blk.selLow := true
    dev.blk.host.exchange := .request }

/-- The cutter 3. -/
def cutter : State :=
  { aMember 3 .cutter with dev.blk.saw.grant := 500, dev.blk.meas.windowT := none }

/-- The plant 1. -/
def plant : State := aMember 1 .plant

/-! ## The step and the invariants -/

theorem test_cutter_is_sound : cutter.dev.sound = true ∧ cutter.dev.jobLaw = true := by decide

theorem test_plant_is_sound : plant.dev.sound = true ∧ plant.dev.jobLaw = true := by decide

theorem test_step_of_a_sound_state :
    ∃ t, step { cutter with pending := [.status] } = .next t ∧ t.dev.sound = true ∧ t.dev.jobLaw = true :=
  ⟨_, rfl, by decide⟩

/-- A command waits: `StepRunsTheFrontCommand`. -/
theorem test_hyps_step_runs : ({ cutter with pending := [.go, .status] } : State).pending = .go :: [.status] := rfl

/-- No command waits: `StepRunsTheFrontCommand`, its second clause. -/
theorem test_hyps_empty_queue : State.reset.pending = [] ∧ step State.reset = .next { State.reset with dev.blk.now := 1 } :=
  ⟨rfl, rfl⟩

/-- FULL_RESET with both inert straps, and with sound ones: `FullResetSetsEveryBlock`, `ResetStatesAreSound`. -/
theorem test_full_reset :
    (runs (.fullReset 0 false 1) cutter).dev.blk.pres.mem = .inert ∧
      (runs (.fullReset 3 false 0) cutter).dev.blk.cost.clockT = none ∧
      (runs (.fullReset 1 true 1) cutter).dev.blk.meas.windowT = some 1000 ∧ State.reset.dev.sound = true ∧
      State.reset.dev.jobLaw = true := by decide

/-- Job numbers out of range and twice in one replica break the law, also in a zero report: `StepKeepsTheShopState`. -/
theorem test_job_law_refuses :
    let reported (l : List Report) : State := { cutter with dev.blk.cost.reports := l }
    (reported [.zero 0]).dev.jobLaw = false ∧ (reported [.line 4 0]).dev.jobLaw = true ∧
      Replica.jobLaw { aShop.rep with looseJobs := [aJob 10 .opened [] none] } = false ∧
      Replica.jobLaw { aShop.rep with looseJobs := [aJob 65536 .opened [] none] } = false := by decide

/-- Steps from sound states: `StepKeepsTheOutboundQueue`, `StepKeepsTheNoticeQueue`, `StepKeepsTheShopState`,
`StepKeepsTheSawLaws`. -/
theorem test_hyps_invariants :
    cutter.dev.blk.line.sound = true ∧ cutter.dev.blk.host.sound = true ∧ cutter.dev.shop.sound = true ∧
      sawSound cutter.dev.shop cutter.dev.blk = true ∧ ∃ t, step { cutter with pending := [.breakEvent] } = .next t :=
  ⟨by decide, by decide, by decide, by decide, _, rfl⟩

/-- A change frame at the cutter: `State.takes`, which every statement of change frames assumes. -/
theorem test_hyps_takes : cutter.takes 8 5 (bytes2 600) ∧ cutter.takes 8 1 [] ∧ cutter.takes 8 3 [] ∧
    plant.takes 8 15 (List.replicate 40 0) := by
  refine ⟨⟨⟨?_, ?_, ?_, ?_⟩, ?_, ?_⟩, ⟨⟨?_, ?_, ?_, ?_⟩, ?_, ?_⟩, ⟨⟨?_, ?_, ?_, ?_⟩, ?_, ?_⟩,
    ⟨⟨?_, ?_, ?_, ?_⟩, ?_, ?_⟩⟩ <;> decide

/-- The ledger is sound before and after: `TakenFramesKeepTheLedgerSound`. -/
theorem test_hyps_ledger_sound :
    cutter.dev.shop.rep.ledger.sound = true ∧ Kind.isChange .flowAsk = true ∧
      (runs (.flowAsk 5 8 (bytes2 2000)) cutter).dev.shop.rep.ledger.sound = true := by decide

/-! ## Characters -/

/-- Sums at and past 255 (R6), and a sound frame: `FoldedSumAndCheck`. -/
theorem test_folded_sum : foldedSum [0xF0, 0x10] = 1 ∧ foldedSum [0xFF] = 255 ∧
    foldedSum (frameChars 3 8 (mkFrame .flowAsk (bytes2 500))) = 255 := by decide

/-- Both clauses of `FrameCharactersRoundTrip`, at the ends of the station numbers and of the length. -/
theorem test_hyps_frame_characters :
    within 1 15 1 = true ∧ within 1 15 15 = true ∧ (List.replicate 40 (0 : Byte)).length ≤ 40 ∧
      hearFrame 5 (frameChars 15 8 (mkFrame .hello (List.replicate 40 255))) = .done ∧
      hearFrame 5 (frameChars 1 8 { kind := .snap, target := 5, payload := [] }) = .done ∧
      hearFrame 5 ((frameChars 1 8 { kind := .snap, target := 15, payload := [] }).take 3) = .skips := by decide +kernel

/-- The ends of the ranges of `PayloadsAndRecordsRoundTrip`. -/
theorem test_hyps_payloads :
    within 100 2000 100 = true ∧ within 100 2000 2000 = true ∧ parseChange .budget (bytes2 8000) = some (.budget 8000) ∧
      parseChange .budget (bytes2 8001) = none ∧ parseChange .flowAsk (bytes2 2000) = some (.flowAsk 2000) ∧
      parseChange .flowAsk (bytes2 99) = none ∧ slabFieldsOk 250 60 4000 2200 = true ∧ slabFieldsOk 1 12 100 100 = true ∧
      within 1 4095 4095 = true ∧ SlabId.lawful { origin := 15, serial := 4095 } = true ∧
      SlabId.lawful { origin := 1, serial := 1 } = true ∧ within 1 65535 65535 = true ∧ within 1 65535 1 = true := by decide

/-- Remnants, tallies and snapshot records at the ends of their ranges. -/
theorem test_hyps_records :
    Remnant.lawful { serial := 4095, length := 4000, width := 2200 } = true ∧
      Tally.lawful { stone := maxSum, waste := maxSum, cost := maxSum, water := maxSum, blade := maxSum, face := maxSum
                     pieces := 65535 } = true ∧
      Record.lawful (.member { station := 15, role := .plant }) = true ∧ Record.lawful (.head 8000 (some 15)) = true ∧
      Record.lawful (.entry { station := 1, asked := 2000, granted := 2000 }) = true ∧
      Record.lawful (.slab 159 heldSlab) = true ∧ Record.lawful (.job 47 (aJob 65535 .closing [3, 15] none)) = true ∧
      Record.lawful (.fin 15 15 160 48) = true ∧
      snapRecord (snapPayload 239 (.slab 159 heldSlab)) = some (.slab 159 heldSlab) := by decide

/-- A READY receiver, a peer's frame and a SNAP either way: `CharactersMakeTheFrame`. -/
theorem test_hyps_characters :
    let s : State := { cutter with dev.blk.line.rx := .ready, dev.blk.line.idle := true }
    s.dev.blk.pres.mem ≠ .inert ∧ (5 : BitVec 4) ≠ 0 ∧ ([] : List Byte).length ≤ 40 ∧ s.dev.blk.line.rx = .ready ∧
      s.dev.blk.line.txDone = none ∧ (3 : BitVec 4).toNat = s.dev.blk.pres.station ∧
      (5 : BitVec 4).toNat ≠ s.dev.blk.pres.station := by decide

/-- The cutter with its receiver in a state. -/
def rxIn (rx : Rx) : State := { cutter with dev.blk.line.rx := rx }

/-- The receiver's clauses on the head: `ReceiverTakesACharacter`. -/
theorem test_hyps_receiver_head :
    (runs (.receiveCharacter 0x65 true true) (rxIn .waitIdle)).dev.blk.line.rx = .waitIdle ∧
      (runs (.receiveCharacter 0x65 false true) (rxIn .skip)).dev.blk.line.rx = .skip ∧
      (runs (.receiveCharacter 0x65 false true) (rxIn .ready)).dev.blk.line.rx = .waitIdle ∧
      (runs (.receiveCharacter 0x65 true false) (rxIn .ready)).dev.blk.line.rx = .waitIdle ∧
      (runs (.receiveCharacter 0x65 true true) (rxIn .ready)).dev.blk.line.rx = .frame [0x65] ∧
      (runs (.receiveCharacter 0x85 true true) (rxIn .ready)).dev.blk.line.lastDiscard = some .malformed := by decide

/-- The receiver's clauses in a frame, each at its character. -/
theorem test_hyps_receiver_frame :
    Kind.ofCodes 7 2 = some .snap ∧ Kind.ofCodes 6 1 = some .hello ∧
      (runs (.receiveCharacter 1 false false) (rxIn (.frame [0x65]))).dev.blk.line.lastDiscard = some .framing ∧
      (runs (.receiveCharacter 1 true true) (rxIn (.frame [0x65]))).dev.blk.line.lastDiscard = some .malformed ∧
      (runs (.receiveCharacter 1 false true) (rxIn (.frame [0x65]))).dev.blk.line.rx = .frame [0x65, 1] ∧
      (runs (.receiveCharacter 0 false true) (rxIn (.frame [0x65, 1]))).dev.blk.line.rx = .frame [0x65, 1, 0] ∧
      (runs (.receiveCharacter 16 false true) (rxIn (.frame [0x75, 2]))).dev.blk.line.lastDiscard = some .malformed ∧
      (runs (.receiveCharacter 3 false true) (rxIn (.frame [0x75, 2]))).dev.blk.line.rx = .frame [0x75, 2, 3] ∧
      (runs (.receiveCharacter 15 false true) (rxIn (.frame [0x75, 2]))).dev.blk.line.rx = .skip ∧
      (runs (.receiveCharacter 40 false true) (rxIn (.frame [0x65, 1, 0]))).dev.blk.line.rx = .frame [0x65, 1, 0, 40] ∧
      (runs (.receiveCharacter 41 false true) (rxIn (.frame [0x65, 1, 0]))).dev.blk.line.rx = .waitIdle := by decide

/-- The receiver's clauses at and before the last character. -/
theorem test_hyps_receiver_end :
    [0x65, 1, 0, 0, 0].length + 1 < 7 + (0 : Byte).toNat ∧ 7 + (0 : Byte).toNat ≤ [0x65, 1, 0, 0, 0, 7].length + 1 ∧
      foldedSum [0x65, 1, 0, 0, 0, 7, 0] ≠ 255 ∧
      (runs (.receiveCharacter 7 false true) (rxIn (.frame [0x65, 1, 0, 0, 0]))).dev.blk.line.rx =
        .frame [0x65, 1, 0, 0, 0, 7] ∧
      (runs (.receiveCharacter 0 false true) (rxIn (.frame [0x65, 1, 0, 0, 0, 7]))).dev.blk.line.lastDiscard =
        some .check ∧
      (runs (.receiveCharacter 0x92 false true) (rxIn (.frame [0x65, 1, 0, 0, 0, 7]))).dev.blk.pres.heard =
        [(5, 0)] := by decide

/-! ## The line controller -/

/-- The INERT station, from straps that name no station. -/
def inert : State := { cutter with dev.blk.pres.mem := .inert, dev.blk.pres.station := 0 }

/-- The clauses of `LineEventsMoveTheLineController`. -/
theorem test_hyps_line_events :
    isLineCommand .lineIdle = true ∧ inert.dev.blk.pres.mem = .inert ∧ runs .lineIdle inert = inert ∧
      cutter.dev.blk.line.inBreak = false ∧ cutter.dev.blk.line.halting = false ∧
      (runs .lineIdle (rxIn (.frame [0x65]))).dev.blk.line.lastDiscard = some .timeout ∧
      (runs .breakEnd { cutter with dev.blk.line.inBreak := true }).dev.blk.line.inBreak = false ∧
      (runs .lineRestExpiry { cutter with dev.blk.line.restT := some 900 }).dev.blk.now = 900 ∧
      (runs .haltBreakEnd { cutter with dev.blk.line.halting := true }).dev.blk.line.halting = false ∧
      (runs .frameTimeLimit (rxIn (.frame [0x65]))).dev.blk.line.rx = .waitIdle ∧
      (runs .yieldClear { cutter with dev.blk.line.yielding := true }).dev.blk.line.yielding = false := by decide

/-- An entry of the outbound queue. -/
def anEntry (p : Producer) (f : Frame) (order : Nat) (out : Bool) : OutEntry :=
  { frame := f, producer := p, order := order, inEmission := out, again := false }

/-- The cutter with a queue, its line idle. -/
def queueing (queue : List OutEntry) : State :=
  { cutter with dev.blk.line.queue := queue, dev.blk.line.idle := true, dev.blk.line.nextOrder := 9 }

/-- A FLOW_ASK and a HELLO that wait. -/
def twoWait : List OutEntry :=
  [anEntry .saw (mkFrame .flowAsk (bytes2 400)) 4 false, anEntry .presence (mkFrame .hello []) 2 false]

/-- `TransmitterStartsTheFirstFrame`: free with a frame that may start first, with one held back, with all held, and not
free. -/
theorem test_hyps_transmit :
    ((runs .transmitStart (queueing twoWait)).dev.blk.line.queue.map (·.inEmission)) = [true, false] ∧
      ((runs .transmitStart { queueing twoWait with dev.shop.state := .stale }).dev.blk.line.queue.map (·.inEmission)) =
        [false, true] ∧
      runs .transmitStart { queueing (twoWait.take 1) with dev.shop.state := .stale } =
        { queueing (twoWait.take 1) with dev.shop.state := .stale } ∧
      runs .transmitStart { queueing twoWait with dev.blk.line.yielding := true } =
        { queueing twoWait with dev.blk.line.yielding := true } := by decide

/-- The cutter with a frame in emission and one that waits. -/
def emitting (f : Frame) : State := queueing [anEntry .table f 4 true, anEntry .presence (mkFrame .hello []) 2 false]

/-- `FailedAttemptsReturnToWaiting`: nothing in emission; fewer than 7 failures; and 7. -/
theorem test_hyps_failed_attempts :
    let e := emitting (mkFrame .flowDrop [])
    cutter.dev.blk.line.emitting = none ∧ e.dev.blk.line.emitting = some (anEntry .table (mkFrame .flowDrop []) 4 true) ∧
      (runs .collision { e with dev.blk.line.failures := 6 }).dev.blk.line.failures = 7 ∧
      (runs .collision { e with dev.blk.line.failures := 7 }).dev.blk.host.notices = [.lineFault .collision] ∧
      (runs .arbitrationLost { e with dev.blk.line.failures := 7 }).dev.blk.line.failures = 7 := by decide

/-- `CompletedFrameLeavesTheQueue`: with nothing that waits, and with one frame on the wait list. -/
theorem test_hyps_completed :
    let e := emitting (mkFrame .flowDrop [])
    e.dev.blk.line.backlog = [] ∧ e.dev.blk.line.waitList = [] ∧
      ((runs .sendCompleted e).dev.blk.line.queue.map (·.order)) = [2] ∧
      ((runs .sendCompleted { e with
          dev.blk.line.waitList := [{ producer := .saw, frame := mkFrame .flowAsk (bytes2 400) }] }).dev.blk.line.queue.map
        (·.order)) = [9, 2] := by decide

/-- A stream to station 5 with its SNAP in emission. -/
def serving (carried : Pos) : State :=
  { emitting { kind := .snap, target := 5, payload := [0, 0] } with
    dev.blk.asking.stream := some { asker := 5, pos := carried, seq := 4, lastDone := 1, carried := carried, sent := [0, 0] } }

/-- `StreamMovesThroughTheReplica`: a SYNC_ASK of a STALE station, a SNAP before END, and END. -/
theorem test_hyps_ask_and_stream :
    (runs .sendCompleted { emitting (mkFrame .syncAsk []) with dev.shop.state := .stale }).dev.blk.pres.askT = some 1000 ∧
      ((runs .sendCompleted (serving .head)).dev.blk.asking.stream.map (·.seq)) = some 5 ∧
      (runs .sendCompleted (serving .fin)).dev.blk.asking.stream = none ∧
      (serving .fin).dev.blk.line.queue.length ≤ 12 := by decide

/-- `StreamMovesThroughTheReplica`: the positions at the ends of the sections. -/
theorem test_hyps_stream_positions :
    let r := aShop.rep
    r.members[2]? = some { station := 5, role := .cutter } ∧ r.members[3]? = none ∧ r.ledger.entries[1]?.isSome = true ∧
      r.ledger.entries[2]? = none ∧ Slots.wf r.slabs = true ∧ Slots.get 2 r.slabs = some heldSlab ∧
      (r.recordAt (.slab 1)).1 = .slab 2 ∧ (r.recordAt (.slab 4)).1 = .job 0 ∧ Slots.wf r.jobs = true ∧
      (Slots.get 2 r.jobs).isSome = true ∧ (r.recordAt (.job 3)).1 = .fin := by decide

/-- A build of the cutter from station 1. -/
def building (reached : Nat) : State :=
  { cutter with
    dev.blk.saw.grant := 0
    dev.shop :=
      { aShop with
        state := .building
        build := some
          { server := 2, expGen := 9, expSeq := 4, reached := reached, slabMark := none, jobMark := none
            aside := aShop.rep, asideState := .stale, asideGen := 6 } } }

/-- `BreakEventDrainsTheLedger`: within a break, with no build, and with a build before, in and past the ledger. -/
theorem test_hyps_break :
    let s := rxIn (.frame [0x65])
    ((runs .breakEvent s).dev.shop.rep.ledger.entries.map (·.granted)) = [0, 0] ∧
      (runs .breakEvent s).dev.blk.line.lastDiscard = some .broken ∧
      runs .breakEvent { s with dev.blk.line.inBreak := true } = { s with dev.blk.line.inBreak := true } ∧
      (runs .breakEvent (building 1)).dev.shop.state = .building ∧ (runs .breakEvent (building 2)).dev.shop.state = .stale ∧
      (runs .breakEvent (building 3)).dev.shop.rep.ledger.budget = 0 := by decide

/-! ## Change frames -/

/-- `ChangeFramesMoveTheGeneration`: the successor, the successor with a void frame, a gap, and a STALE replica. -/
theorem test_hyps_change_frames :
    (runs (.flowDrop 5 8 []) cutter).dev.shop.gen = 8 ∧
      (judgeFrame (Ctx.whole 8) 5 .flowDrop [1] cutter.dev.shop.rep).void.isSome = true ∧
      (runs (.flowDrop 5 8 [1]) cutter).dev.shop.gen = 8 ∧ (runs (.flowDrop 5 9 []) cutter).dev.shop.state = .stale ∧
      (runs (.flowDrop 5 8 []) { cutter with dev.shop.state := .stale }).dev.shop.gen = 7 := by decide

/-- `PeerFramesLeaveTheRestAlone`: the cutter 3 serves no stream and has no line. -/
theorem test_hyps_peer_frames :
    (5 : BitVec 4).toNat ≠ cutter.dev.blk.pres.station ∧ cutter.dev.blk.asking.stream = none ∧
      (cutter.dev.shop.rep.allJobs.map (fun j => j.number)) = [10, 11, 12] ∧
      cutter.dev.blk.cost.lines = [] ∧ cutter.dev.blk.pres.role = .cutter ∧ Kind.cls .claim = 4 ∧ Kind.cls .jobOpen = 5 ∧
      (let sh : Shop :=
        { cutter.dev.shop with
          gen := 8, rep := (judgeFrame (Ctx.whole 8) 5 .flowDrop [] cutter.dev.shop.rep).rep }
      effGrant sh cutter.dev.blk = effGrant cutter.dev.shop cutter.dev.blk) ∧ cutter.dev.blk.planner.plan = none := by decide

/-- Ledgers over and under their budgets, and with entries at the ends: `CutbackAndTopUpSettleTheLedger`. -/
theorem test_hyps_ledgers :
    let l := aShop.rep.ledger
    grantSum l.entries ≤ l.budget ∧ ({ l with budget := 700 } : Ledger).budget < grantSum l.entries ∧
      (({ l with budget := 700 } : Ledger).cutback.entries.map (·.granted)) = [500, 200] ∧
      (({ l with budget := 400 } : Ledger).cutback.entries.map (·.granted)) = [400, 0] ∧
      (({ l with budget := 1050 } : Ledger).topUp.entries.map (·.granted)) = [500, 550] := by decide

/-- `BudgetFrameSetsTheBudget`: the plant at both ends of the value, a cutter, another plant, and a value too high. -/
theorem test_hyps_budget :
    roleOf 1 aShop.rep = some .plant ∧ aShop.rep.ledger.plant = some 1 ∧ roleOf 5 aShop.rep ≠ some .plant ∧
      (runs (.budget 1 8 (bytes2 8000)) cutter).dev.shop.rep.ledger.budget = 8000 ∧
      (runs (.budget 1 8 (bytes2 0)) cutter).dev.shop.rep.ledger.budget = 0 ∧
      (runs (.budget 1 8 (bytes2 8001)) cutter).dev.shop.rep.ledger.budget = 1000 ∧
      (runs (.budget 5 8 (bytes2 0)) cutter).dev.shop.rep.ledger.budget = 1000 ∧
      (runs (.budget 1 8 (bytes2 0)) { cutter with dev.shop.rep.ledger.plant := some 2 }).dev.shop.rep.ledger.budget =
        1000 := by decide

/-- `FlowFramesMoveTheSendersEntry`: an ask at both ends, from no member, out of range; a drop with and without an entry. -/
theorem test_hyps_flow :
    memberOf 5 aShop.rep = true ∧ memberOf 9 aShop.rep = false ∧ within 100 2000 (be16 0 99) = false ∧
      ((runs (.flowAsk 5 8 (bytes2 100)) cutter).dev.shop.rep.ledger.entries.map (·.granted)) = [500, 100] ∧
      ((runs (.flowAsk 3 8 (bytes2 2000)) cutter).dev.shop.rep.ledger.entries.map (·.granted)) = [500, 500] ∧
      (runs (.flowAsk 9 8 (bytes2 100)) cutter).dev.shop.rep = aShop.rep ∧
      ((runs (.flowDrop 3 8 []) cutter).dev.shop.rep.ledger.entries.map (·.granted)) = [600] ∧
      (runs (.flowDrop 1 8 []) cutter).dev.shop.rep = aShop.rep := by decide

/-- `JoinAndGoneMoveTheMemberSet`: a member gone, the plant gone, a stranger gone, a long payload, and a JOIN of both kinds. -/
theorem test_hyps_members :
    ((runs (.gone 1 8 [5]) cutter).dev.shop.rep.members.map (·.station)) = [1, 3] ∧
      (runs (.gone 3 8 [1]) cutter).dev.shop.rep.ledger.budget = 0 ∧
      (runs (.gone 1 8 [9]) cutter).dev.shop.rep = aShop.rep ∧ (runs (.gone 1 8 [5, 5]) cutter).dev.shop.rep = aShop.rep ∧
      ((runs (.join 2 8 [byte1 (Role.code .cutter)]) cutter).dev.shop.rep.members.map (·.station)) = [1, 2, 3, 5] ∧
      ((runs (.join 5 8 [byte1 (Role.code .cutter)]) cutter).dev.shop.rep.ledger.entries.map (·.station)) = [3] := by decide

/-- A table of slabs with every slot filled. -/
def fullTable : Slots Slab := (List.range 160).map (fun k => (k, { freeSlab with id := { origin := 2, serial := k + 1 } }))

/-- `SlabAddFrameInsertsASheet`: a new id, a field out of range, an id that is present, and a full table. -/
theorem test_hyps_slab_add :
    Slots.wf aShop.rep.slabs = true ∧ Slots.get 1 aShop.rep.slabs = none ∧ (Slots.get 0 aShop.rep.slabs).isSome = true ∧
      ((runs (.slabAdd 5 8 (slabAddPayload 4095 250 60 4000 2200 255 65535)) cutter).dev.shop.rep.slabs.map (·.1)) =
        [0, 1, 2, 3] ∧
      (runs (.slabAdd 5 8 (slabAddPayload 4096 250 60 4000 2200 255 65535)) cutter).dev.shop.rep = aShop.rep ∧
      (runs (.slabAdd 1 8 (slabAddPayload 1 1 12 100 100 0 0)) cutter).dev.shop.rep = aShop.rep ∧
      ∀ n, n < 160 → (Slots.get n fullTable).isSome = true := by decide +kernel

/-- `StockFramesMoveTheirRecord`: each frame taken and void, on records FREE, CLAIMED and ORPHANED. -/
theorem test_hyps_stock :
    SlabId.ofCode (be16 0x10 0x01) = some { origin := 1, serial := 1 } ∧
      aShop.rep.slab? { origin := 1, serial := 1 } = some freeSlab ∧
      ((runs (.claim 1 8 [0x10, 0x01]) cutter).dev.shop.rep.slabs.map (·.2.holder)) = [some 1, some 3, some 5] ∧
      (runs (.claim 5 8 [0x10, 0x01]) cutter).dev.shop.rep = aShop.rep ∧
      ((runs (.release 3 8 [0x30, 0x09]) cutter).dev.shop.rep.slabs.map (·.2.holder)) = [none, none, some 5] ∧
      ((runs (.reclaim 5 8 [0x10, 0x03]) cutter).dev.shop.rep.slabs.map (·.2.state)) = [.free, .claimed, .claimed] ∧
      ((runs (.freeOrphanFrame 2 8 [0x10, 0x03]) cutter).dev.shop.rep.slabs.map (·.2.state)) =
        [.free, .claimed, .free] ∧
      ((runs (.scrap 2 8 [0x10, 0x01]) cutter).dev.shop.rep.slabs.map (·.1)) = [2, 3] := by decide

/-- `StockFramesMoveTheirRecord`: an id of no record, and a payload that names no id. -/
theorem test_hyps_stock_absent :
    aShop.rep.slab? { origin := 9, serial := 9 } = none ∧ SlabId.ofCode (be16 0x90 0x09) = some { origin := 9, serial := 9 } ∧
      idPayload [0x10] = none ∧ (runs (.scrap 2 8 [0x90, 0x09]) cutter).dev.shop.rep = aShop.rep := by decide

/-- A remnant of a serial. -/
def aRemnant (n : Nat) : Remnant := { serial := n, length := 500, width := 400 }

/-- `ConsumeFrameLeavesItsRemnants`: none, one, one whose id is present, two, too much area, and no such parent. -/
theorem test_hyps_consume :
    let i : SlabId := { origin := 3, serial := 9 }
    aShop.rep.slab? i = some heldSlab ∧ SlabId.lawful i = true ∧ (aRemnant 1).lawful = true ∧
      ((runs (.consume 3 8 (consumePayload i false 800000 [])) cutter).dev.shop.rep.slabs.map (·.1)) = [0, 3] ∧
      ((runs (.consume 3 8 (consumePayload i false 600000 [aRemnant 4095])) cutter).dev.shop.rep.slabs.map (·.1)) =
        [0, 1, 3] ∧
      ((runs (.consume 3 8 (consumePayload i false 400000 [aRemnant 1, aRemnant 2])) cutter).dev.shop.rep.slabs.map (·.1)) =
        [0, 1, 2, 3] ∧
      (runs (.consume 3 8 (consumePayload i false 800001 [])) cutter).dev.shop.rep = aShop.rep ∧
      (runs (.consume 5 8 (consumePayload i false 0 [])) cutter).dev.shop.rep = aShop.rep ∧
      aShop.rep.slab? { origin := 3, serial := 10 } = none := by decide

/-- `JobFramesMoveTheJobTable`, JOB_OPEN: OPEN, CLOSED, absent with room, and the number 0. -/
theorem test_hyps_job_open :
    Slots.wf aShop.rep.jobs = true ∧ (runs (.jobOpen 1 8 (bytes2 10)) cutter).dev.shop.rep = aShop.rep ∧
      ((runs (.jobOpen 1 8 (bytes2 12)) cutter).dev.shop.rep.jobs.map (·.2.state)) = [.opened, .closing, .opened] ∧
      ((runs (.jobOpen 1 8 (bytes2 65535)) cutter).dev.shop.rep.jobs.map (·.1)) = [0, 1, 2, 3] ∧
      (runs (.jobOpen 1 8 (bytes2 0)) cutter).dev.shop.rep = aShop.rep := by decide

/-- A table of jobs with every slot filled, slot 4 CLOSED. -/
def fullJobs : Slots Job :=
  (List.range 48).map (fun k => (k, aJob (k + 1) (if k = 4 then .closed else .opened) [] (some 3)))

/-- `JobFramesMoveTheJobTable`, JOB_OPEN on a full table: the CLOSED record makes room, and without one it is void. -/
theorem test_hyps_job_open_full :
    ((runs (.jobOpen 1 8 (bytes2 99)) { cutter with dev.shop.rep.jobs := fullJobs }).dev.shop.rep.job? 99).isSome = true ∧
      Slots.wf fullJobs = true ∧ ∀ n, n < 48 → (Slots.get n fullJobs).isSome = true := by decide +kernel

/-- `JobFramesMoveTheJobTable`: JOB_CLOSE with and without cutters, COST_REPORT of the last and of another station. -/
theorem test_hyps_job_close :
    let z := reportPayload 11 Tally.zero
    (((runs (.jobClose 1 8 (bytes2 10)) cutter).dev.shop.rep.job? 10).map (·.pending)) = some [3, 5] ∧
      (((runs (.jobClose 1 8 (bytes2 10)) { cutter with dev.shop.rep.members := [] }).dev.shop.rep.job? 10).map (·.state)) =
        some .closed ∧
      (runs (.jobClose 1 8 (bytes2 11)) cutter).dev.shop.rep = aShop.rep ∧
      (((runs (.costReport 5 8 z) cutter).dev.shop.rep.job? 11).map (·.pending)) = some [3] ∧
      (runs (.costReport 1 8 z) cutter).dev.shop.rep = aShop.rep ∧ aShop.rep.job? 77 = none := by decide

/-! ## Presence, asking and building -/

/-- The cutter whose sending of a kind has just completed. -/
def sent (k : Kind) : State := { cutter with dev.blk.line.txDone := some k }

/-- `State.hears`, which every statement of frames assumes. -/
theorem test_hyps_hears : cutter.hears 5 [] ∧ (sent .hello).hears 3 [] ∧ (building 3).hears 2 (snapPayload 4 (.head 0 none)) := by
  refine ⟨⟨?_, ?_, ?_, ?_⟩, ⟨?_, ?_, ?_, ?_⟩, ?_, ?_, ?_, ?_⟩ <;> decide

/-- `HelloFrameIsItsHead`: a peer's, its own, and its number's in each membership state. -/
theorem test_hyps_hello :
    cutter.dev.blk.line.emitting = none ∧ (runs (.hello 5 8 []) cutter).dev.blk.pres.heard = [(5, 0)] ∧
      runs (.hello 3 8 []) (sent .hello) = cutter ∧
      (runs (.hello 3 8 []) cutter).dev.blk.host.notices = [.duplicateStation .hello] ∧
      (runs (.hello 3 8 []) { cutter with dev.blk.pres.mem := .joining }).dev.blk.pres.mem = .mute ∧
      (runs (.hello 3 8 []) { cutter with dev.blk.pres.mem := .outside .listen }).dev.blk.pres.mem = .mute ∧
      (runs (.hello 3 8 []) { cutter with dev.blk.pres.mem := .mute }).dev.blk.host.notices = [] := by decide

/-- `SyncAskFrameStartsAStream`: a free server, a busy one, a STALE one, and its own. -/
theorem test_hyps_sync_ask :
    ((runs (.syncAsk 5 8 []) cutter).dev.blk.asking.stream.map (·.asker)) = some 5 ∧
      ((runs (.syncAsk 1 8 []) (serving .head)).dev.blk.asking.stream.map (·.asker)) = some 5 ∧
      (runs (.syncAsk 5 8 []) { cutter with dev.shop.state := .stale }).dev.blk.asking.askHeard = [(5, 0)] ∧
      runs (.syncAsk 3 8 []) (sent .syncAsk) = cutter := by decide

/-- `RebaseFrameSettlesTheReplica`: its own CURRENT, STALE and with a build; another's in each. -/
theorem test_hyps_rebase :
    runs (.rebase 3 8 []) (sent .rebase) = cutter ∧
      (runs (.rebase 3 8 []) { sent .rebase with dev.shop.state := .stale }).dev.shop = aShop ∧
      (runs (.rebase 3 8 []) { building 3 with dev.blk.line.txDone := some .rebase }).dev.shop.gen = 6 ∧
      (runs (.rebase 5 8 []) cutter).dev.shop.state = .stale ∧
      (runs (.rebase 5 8 []) { cutter with dev.shop.state := .empty }).dev.shop.state = .empty ∧
      (runs (.rebase 5 8 []) (building 3)).dev.shop.build = none := by decide

/-- A SNAP's payload. -/
def snapOf (seq : Nat) (r : Record) : List Byte := snapPayload seq r

/-- `SnapFrameBuildsTheReplica` outside a build: elsewhere, CURRENT, past the first, and a first one. -/
theorem test_hyps_snap :
    let m : Record := .member { station := 1, role := .plant }
    let stale : State := { cutter with dev.shop.state := .stale }
    m.lawful = true ∧ (runs (.snap 5 15 8 (snapOf 0 m)) cutter).dev.blk.line.rx = .skip ∧
      (runs (.snap 5 3 8 (snapOf 0 m)) cutter).dev.shop = aShop ∧ (runs (.snap 5 3 8 (snapOf 1 m)) stale).dev.shop.build = none ∧
      (runs (.snap 5 3 8 (snapOf 0 m)) stale).dev.shop.state = .building ∧
      ((runs (.snap 5 3 8 (snapOf 0 m)) stale).dev.shop.build.map (·.server)) = some 5 := by decide

/-- `SnapFrameBuildsTheReplica` in a build of server 2: in place, END right and wrong, out of place, and other servers. -/
theorem test_hyps_snap_in_a_build :
    let e : Record := .entry { station := 9, asked := 100, granted := 0 }
    let b := building 2
    ((runs (.snap 2 3 9 (snapOf 4 e)) b).dev.shop.build.map (·.expSeq)) = some 5 ∧
      (runs (.snap 2 3 9 (snapOf 4 (.fin 3 2 3 3))) b).dev.shop.state = .current ∧
      (runs (.snap 2 3 9 (snapOf 4 (.fin 3 2 3 4))) b).dev.shop.state = .stale ∧
      (runs (.snap 2 3 9 (snapOf 5 e)) b).dev.shop.state = .stale ∧
      ((runs (.snap 1 3 20 (snapOf 0 e)) b).dev.shop.build.map (·.server)) = some 1 ∧
      ((runs (.snap 5 3 20 (snapOf 0 e)) b).dev.shop.build.map (·.server)) = some 2 := by decide

/-- The cutter that has asked, its replica STALE. -/
def asked (count : Nat) (answered : Bool) : State :=
  { cutter with
    dev.shop.state := .stale, dev.blk.pres.askT := some 1000, dev.blk.asking.count := count
    dev.blk.asking.answered := answered }

/-- `AskTimerExpiryAsksAgain`: stopped, CURRENT, building, answered, counted, and at the third with and without a right
to rebase. -/
theorem test_hyps_ask_timer :
    runs .askTimerExpiry cutter = cutter ∧
      (runs .askTimerExpiry { asked 0 false with dev.shop.state := .current }).dev.blk.now = 1000 ∧
      (runs .askTimerExpiry { building 3 with dev.blk.pres.askT := some 1000 }).dev.shop.state = .stale ∧
      (runs .askTimerExpiry (asked 1 true)).dev.blk.asking.count = 1 ∧
      (runs .askTimerExpiry (asked 1 false)).dev.blk.asking.count = 2 ∧
      ((runs .askTimerExpiry (asked 2 false)).dev.blk.line.queue.map (·.frame.kind)) = [.rebase] ∧
      ((runs .askTimerExpiry { asked 2 false with dev.blk.asking.snapHeard := some 0 }).dev.blk.line.queue.map
        (·.frame.kind)) = [.syncAsk] := by decide

/-- `PresenceTimersOfferTheirFrames`: each timer running and stopped, a silent member, and no watch. -/
theorem test_hyps_presence_timers :
    ((runs .listenTimerExpiry State.reset).dev.blk.line.queue.map (·.frame.kind)) = [.syncAsk] ∧
      runs .listenTimerExpiry cutter = cutter ∧
      ((runs .helloTimerExpiry cutter).dev.blk.line.queue.map (·.frame.kind)) = [.hello] ∧
      runs .helloTimerExpiry State.reset = State.reset ∧
      (runs (.memberSilent 5) cutter).dev.blk.now = 3040 ∧ cutter.dev.blk.pres.mem = .member ∧
      cutter.dev.shop.state = .current ∧ runs (.memberSilent 9) cutter = cutter ∧
      runs (.memberSilent 3) cutter = cutter := by decide

/-- `RejoinStartsTheStationOver`: pending with the line free and in use, and the request in each case. -/
theorem test_hyps_rejoin :
    cutter.dev.blk.saw.planLaw = true ∧
      (runs .rejoinTakesEffect { cutter with dev.blk.host.rejoinPending := true }).dev.shop.state = .empty ∧
      runs .rejoinTakesEffect cutter = cutter ∧ (runs .rejoin cutter).dev.blk.pres.listenT = some 1500 ∧
      (runs .rejoin (emitting (mkFrame .hello []))).dev.blk.host.rejoinPending = true ∧
      (runs .rejoin { cutter with dev.blk.pres.mem := .mute }).dev.blk.host.reply =
        some { status := .wrongState, payload := [], notice := false } := by decide

/-! ## The host port -/

/-- The status of the reply fixed. -/
def replyStatus (s : State) : Option Status := s.dev.blk.host.reply.map (·.status)

/-- The cutter with notices waiting. -/
def noted (n : Nat) : State := { cutter with dev.blk.host.notices := List.replicate n (.synced 7), dev.blk.host.attn := true }

/-- A request arrives at the cutter and at the plant: `State.asked`. -/
theorem test_hyps_asked : cutter.asked ∧ plant.asked := by refine ⟨⟨?_, ?_⟩, ?_, ?_⟩ <;> decide

/-- `ExchangeAndNoticeQueue`: each event with SEL high and low, replies with and without a notice, and 15 and 16 notices. -/
theorem test_hyps_exchange :
    (runs .selFall State.reset).dev.blk.host.exchange = .request ∧ runs .selFall cutter = cutter ∧
      (runs .selRise cutter).dev.blk.selLow = false ∧ ((runs .fetchNotice (noted 2)).dev.blk.host.reply.map (·.notice)) = some true ∧
      (runs .noticeRemoved (runs .fetchNotice (noted 2))).dev.blk.host.notices = [.synced 7] ∧
      (runs .noticeRemoved (runs .fetchNotice (noted 1))).dev.blk.host.attn = false ∧
      (runs .noticeRemoved (runs .fetchNotice cutter)).dev.blk.host.exchange = .drain ∧ runs .noticeRemoved cutter = cutter ∧
      ((noted 15).dev.blk.post (.goneSelf 1)).host.notices.length = 16 ∧ ((noted 16).dev.blk.post (.goneSelf 1)).host.lost = 1 := by
  decide

/-- `StatusAndRefusedRequests`: a bad request at a sound and at an INERT station, INERT, WRONG_ROLE, and outside REQUEST. -/
theorem test_hyps_status :
    replyStatus (runs .status inert) = some .ok ∧ requestLength 1 ≠ some 1 ∧
      replyStatus (runs (.badRequest 1 1) inert) = some .badRequest ∧ replyStatus (runs (.badRequest 2 1) inert) = some .inert ∧
      replyStatus (runs (.badRequest 0 0) cutter) = some .badRequest ∧ isHostRequest .go = true ∧
      replyStatus (runs .go inert) = some .inert ∧ isCutterRequest .go = true ∧
      replyStatus (runs .go plant) = some .wrongRole ∧ runs .go State.reset = State.reset := by decide

/-- The cutter with a full outbound queue. -/
def fullQueue (s : State) : State := { s with dev.blk.line.queue := List.replicate 12 (anEntry .host (mkFrame .scrap [1, 1]) 1 false) }

/-- `StockAndJobRequestsQueueTheirFrames`, REGISTER_SLAB: out of range, not LIVE, full, and queued. -/
theorem test_hyps_register :
    replyStatus (runs (.registerSlab 0 20 1000 500 0 0) cutter) = some .badField ∧
      replyStatus (runs (.registerSlab 1 12 100 100 0 0) { cutter with dev.shop.state := .stale }) = some .notLive ∧
      replyStatus (runs (.registerSlab 250 60 4000 2200 255 65535) (fullQueue cutter)) = some .full ∧
      replyStatus (runs (.registerSlab 1 20 1000 500 0 0) cutter) = some .queued ∧
      (runs (.registerSlab 1 20 1000 500 0 0) cutter).dev.blk.pres.serial = 2 ∧
      2 ∉ usedSerials cutter.dev.shop cutter.dev.blk := by decide

/-- `StockAndJobRequestsQueueTheirFrames`, SCRAP_SLAB and FREE_ORPHAN: no id, not LIVE, absent, wrong, full and queued. -/
theorem test_hyps_scrap_and_free :
    SlabId.ofCode 0x0001 = none ∧ replyStatus (runs (.scrapSlab 0x0001) cutter) = some .badField ∧
      replyStatus (runs (.scrapSlab 0x1001) { cutter with dev.shop.state := .stale }) = some .notLive ∧
      replyStatus (runs (.scrapSlab 0x9009) cutter) = some .notFound ∧
      replyStatus (runs (.scrapSlab 0x3009) cutter) = some .wrongState ∧
      replyStatus (runs (.scrapSlab 0x1001) (fullQueue cutter)) = some .full ∧
      replyStatus (runs (.scrapSlab 0x1001) cutter) = some .queued ∧
      replyStatus (runs (.freeOrphan 0x1001) cutter) = some .wrongState ∧
      replyStatus (runs (.freeOrphan 0x1003) cutter) = some .queued := by decide

/-- `StockAndJobRequestsQueueTheirFrames`, the job requests: the number 0, not LIVE, and each state of the record, with room and without. -/
theorem test_hyps_job_requests :
    replyStatus (runs (.openJob 0) cutter) = some .badField ∧ replyStatus (runs (.openJob 10) cutter) = some .wrongState ∧
      replyStatus (runs (.openJob 10) { cutter with dev.shop.state := .stale }) = some .notLive ∧
      replyStatus (runs (.openJob 12) cutter) = some .queued ∧ replyStatus (runs (.openJob 65535) (fullQueue cutter)) = some .full ∧
      replyStatus (runs (.closeJob 77) cutter) = some .notFound ∧ replyStatus (runs (.closeJob 11) cutter) = some .wrongState ∧
      replyStatus (runs (.closeJob 10) (fullQueue cutter)) = some .full ∧ replyStatus (runs (.closeJob 10) cutter) = some .queued ∧
      replyStatus (runs (.readJob 77) cutter) = some .notFound ∧
      ((runs (.readJob 11) cutter).dev.blk.host.reply.bind (·.payload.head?)) = some 1 ∧
      ((runs (.readJob 5) { cutter with dev.shop.rep.looseJobs := [aJob 5 .opened [] none] }).dev.blk.host.reply.bind
        (·.payload.head?)) = some 255 := by decide

/-- A cost line of job 10. -/
def aLine (st : ReportState) : CostLine := { job := 10, tally := { Tally.zero with blade := 5 }, openCount := 0, state := st }

/-- The cutter with a cost line in slot 23. -/
def withLine (st : ReportState) : State := { cutter with dev.blk.cost.lines := [(23, aLine st)] }

/-- `ReadRequestsReplyFromTheState`: READ_SLAB and the cost line requests, at the ends of the slots. -/
theorem test_hyps_reads :
    replyStatus (runs (.readSlab 0) cutter) = some .badField ∧ replyStatus (runs (.readSlab 0x9009) cutter) = some .notFound ∧
      ((runs (.readSlab 0x3009) cutter).dev.blk.host.reply.bind (·.payload.head?)) = some 2 ∧
      ((runs (.readSlab 0x9009) { cutter with
          dev.shop.rep.looseSlabs := [{ freeSlab with id := { origin := 9, serial := 9 } }] }).dev.blk.host.reply.bind
        (·.payload.head?)) = some 255 ∧
      replyStatus (runs (.readCostLine 24) cutter) = some .badField ∧ replyStatus (runs (.readCostLine 23) cutter) = some .notFound ∧
      replyStatus (runs (.readCostLine 23) (withLine .due)) = some .ok ∧
      replyStatus (runs (.clearCostLine 23) (withLine .due)) = some .wrongState ∧
      (runs (.clearCostLine 23) (withLine .refused)).dev.blk.cost.lines = [] ∧
      (runs (.clearCostLine 23) { withLine .refused with dev.shop.state := .stale }).dev.blk.cost.lines = [] := by decide

/-- `ReadRequestsReplyFromTheState`: READ_LEDGER at the ends of its start, READ_SAMPLES with and without valid values. -/
theorem test_hyps_reads_more :
    replyStatus (runs (.readLedger 14) cutter) = some .ok ∧ replyStatus (runs (.readLedger 15) cutter) = some .badField ∧
      filtered [1, 2, 3, 4] = some 2 ∧ filtered cutter.dev.blk.meas.maHist = none ∧
      replyStatus (runs .readSamples { plant with dev.blk.meas.maHist := [1, 2, 3, 4], dev.blk.meas.mbHist := [0, 0, 0, 1] }) =
        some .ok ∧
      replyStatus (runs .readSamples cutter) = some .ok ∧
      ((runs (.readLedger 0) (building 3)).dev.blk.host.reply.map (·.payload.take 2)) = some [0, 9] ∧
      ((runs (.readLedger 0) cutter).dev.blk.host.reply.map (·.payload.take 2)) = some [0, 7] := by decide

/-! ## The planner -/

/-- A piece of job 10. -/
def aPiece (n : Nat) : Piece :=
  { id := n, job := 10, material := 7, thickness := 20, length := 600, width := 400, rotate := false, state := .queued, sub := n }

/-- A cut of a plan. -/
def aCut (done : Bool) : Cut := { kind := .cross, length := 1500, placement := 1, job := 10, done := done }

/-- The cutter's plan on the free sheet. -/
def aPlan (st : PlanState) : Plan :=
  { slab := { origin := 1, serial := 1 }, length := 3000, width := 1500, material := 7, thickness := 20, state := st
    back := .claiming, fault := none, releasing := false
    placements := [{ piece := aPiece 1, x := 0, y := 0, length := 600, width := 400, rotated := false, done := false }]
    offcuts := [{ x := 604, y := 0, length := 2396, width := 1500 }], cuts := [aCut false, aCut false], started := false
    piece := none, job := 10, keptRelease := false, keptConsume := false, abandoned := false }

/-- The cutter with a plan. -/
def planned (st : PlanState) : State := { cutter with dev.blk.planner.plan := some (aPlan st) }

/-- The cutter that holds no slab. -/
def slabless : State := { cutter with dev.shop.rep.slabs := [(0, freeSlab), (3, lostSlab)] }

/-- `WalkAndPlanPartsMoveOn`: the cursor's ends, a walk with and without a slab left, and plan parts with and without a plan. -/
theorem test_hyps_walk :
    replyStatus (runs (.setCursor 160) cutter) = some .badField ∧ (runs (.setCursor 159) cutter).dev.blk.host.cursor = 159 ∧
      (runs .walkSlabs { cutter with dev.blk.host.cursor := 1 }).dev.blk.host.cursor = 3 ∧
      replyStatus (runs .walkSlabs { cutter with dev.blk.host.cursor := 4 }) = some .notFound ∧
      (runs .readPlan cutter).dev.blk.host.planPart = 1 ∧
      (runs .readPlan { planned .planning with dev.blk.host.planPart := 6 }).dev.blk.host.planPart = 0 ∧
      ((runs .readPlan { planned .planning with dev.blk.host.planPart := 3 }).dev.blk.host.reply.map (·.payload.length)) =
        some 34 ∧
      ((runs .readPlan { planned .planning with dev.blk.host.planPart := 1 }).dev.blk.host.reply.map (·.payload.length)) =
        some 38 := by decide

/-- Two jobs found closed, the CLAIM being for a piece of the first: both are told ahead of the search's notice (log 6). -/
theorem test_closed_jobs_are_told_first :
    let s : State := { slabless with
      dev.blk.planner.pieces :=
        [{ aPiece 1 with job := 11 }, { aPiece 2 with job := 12 }, { aPiece 3 with length := 3990 }]
      dev.blk.planner.plan := some { aPlan .claiming with piece := some 1, job := 11 }
      dev.blk.line.queue := [anEntry .planner (mkFrame .claim (bytes2 0x1001)) 1 false] }
    let b := s.dev.blk.rereadJobs s.dev.shop
    b.host.notices = [.jobPiecesCancelled 11 1, .jobPiecesCancelled 12 1, .pieceWaiting 3 10] ∧
      b.planner.pieces.map (·.id) = [3] ∧ b.planner.plan = none ∧ b.line.queue = [] := by decide

/-- The piece the cutter asks for in the tests. -/
def submit (n : Byte) (job : Word16) (l : Word16) : Instr := .submitPiece n job 7 20 l 400 0

/-- `PieceRequestsAndTheSearch`, SUBMIT_PIECE: out of range, taken, no job, full, and each end of the search. -/
theorem test_hyps_submit :
    replyStatus (runs (submit 0 10 600) slabless) = some .badField ∧ replyStatus (runs (submit 1 10 600) (planned .planning)) = some .badField ∧
      replyStatus (runs (submit 2 11 600) slabless) = some .notFound ∧
      replyStatus (runs (submit 255 10 600) { slabless with
        dev.blk.planner.pieces := (List.range 32).map (fun k => aPiece (k + 1)) }) = some .full ∧
      replyStatus (runs (submit 2 10 600) (planned .sealed)) = some .ok ∧
      ((runs (submit 2 10 3990) slabless).dev.blk.planner.pieces.map (·.state)) = [.waitStock] ∧
      ((runs (submit 2 10 600) slabless).dev.blk.line.queue.map (·.frame.kind)) = [.claim] ∧
      ((runs (submit 2 10 600) { slabless with
        dev.blk.cost.lines := (List.range 24).map (fun k => (k, { aLine .refused with job := k + 20 })) }).dev.blk.planner.pieces.map
          (·.state)) = [.waitLine] ∧
      ((runs (submit 2 10 600) cutter).dev.blk.planner.pieces.map (·.state)) = [.queued] := by decide

/-- `PieceRequestsAndTheSearch`, CANCEL_PIECE: absent, placed, claimed for, and queued. -/
theorem test_hyps_cancel :
    replyStatus (runs (.cancelPiece 9) cutter) = some .notFound ∧ replyStatus (runs (.cancelPiece 1) (planned .planning)) = some .wrongState ∧
      replyStatus (runs (.cancelPiece 2) (runs .selFall (runs .selRise (runs (submit 2 10 600) slabless)))) = some .wrongState ∧
      (runs (.cancelPiece 9) { cutter with dev.blk.planner.pieces := [aPiece 9] }).dev.blk.planner.pieces = [] := by decide

/-- `PlacementSplitsTheOffcut`: a piece as given, turned, and one that fits nowhere. -/
theorem test_hyps_placement :
    let q := aPlan .planning
    ((bestOffcut (aPiece 2) q.offcuts 0 none).map (·.1)) = some 0 ∧
      bestOffcut { aPiece 2 with length := 1500, width := 2396, rotate := false } q.offcuts 0 none = none ∧
      ((bestOffcut { aPiece 2 with length := 1500, width := 2396, rotate := true } q.offcuts 0 none).map (·.1)) = some 0 ∧
      ((q.place (aPiece 2) 0 { x := 604, y := 0, length := 2396, width := 1500 }).offcuts.map (fun x => (x.x, x.y, x.length, x.width))) =
        [(1208, 0, 1792, 1500), (604, 404, 600, 1096)] := by decide

/-- `SealingHandsThePlanOver`: a plan in PLANNING, one that is not, and the timer running and stopped. -/
theorem test_hyps_sealing :
    (runs .sealPlan (planned .planning)).dev.blk.saw.st = .loadWait ∧ replyStatus (runs .sealPlan (planned .sealed)) = some .wrongState ∧
      replyStatus (runs .sealPlan cutter) = some .wrongState ∧ runs .sealingTimerExpiry cutter = cutter ∧
      (runs .sealingTimerExpiry { planned .planning with dev.blk.planner.sealT := some 9000 }).dev.blk.saw.st = .loadWait ∧
      (runs .sealingTimerExpiry { planned .sealed with dev.blk.planner.sealT := some 9000 }).dev.blk.planner.sealT = none := by decide

/-- The cutter with its plan handed to the saw. -/
def loaded (p : PlanState) (st : SawState) : State :=
  { planned p with
    dev.blk.saw.st := st
    dev.blk.saw.plan := some { thickness := 20, need := 400, baseFeed := 1500, cuts := (aPlan p).cuts }
    dev.blk.saw.cur := 1 }

/-- `AbandonEndsThePlan`: no plan, a plan that runs, one not LIVE, a full queue, one not started, one started, one lost. -/
theorem test_hyps_abandon :
    replyStatus (runs .abandonPlan cutter) = some .wrongState ∧ replyStatus (runs .abandonPlan (planned .running)) = some .wrongState ∧
      replyStatus (runs .abandonPlan { loaded .loadWait .loadWait with dev.shop.state := .stale }) = some .notLive ∧
      replyStatus (runs .abandonPlan (fullQueue (loaded .loadWait .loadWait))) = some .full ∧
      ((runs .abandonPlan (loaded .loadWait .loadWait)).dev.blk.line.queue.map (·.frame.kind)) = [.release] ∧
      ((runs .abandonPlan (loaded .loadWait .loadWait)).dev.blk.planner.pieces.map (·.id)) = [1] ∧
      ((runs .abandonPlan { loaded .faulted .faulted with
        dev.blk.planner.plan := some { aPlan .faulted with started := true } }).dev.blk.line.queue.map (·.frame.kind)) = [.consume] ∧
      replyStatus (runs .abandonPlan { loaded .faulted .faulted with
        dev.shop.state := .stale
        dev.blk.planner.plan := some { aPlan .faulted with fault := some .slabLost } }) = some .ok := by decide

/-! ## The saw -/

/-- The loaded cutter with a grant of its own. -/
def granted (s : State) (g : Nat) : State := { s with dev.blk.saw.grant := g }

/-- `GoAndResumeTakeUpACut`, GO from LOAD_WAIT: idle, no cuts, and too little water, water, and STOP. -/
theorem test_hyps_go :
    let s := loaded .loadWait .loadWait
    replyStatus (runs .go cutter) = some .wrongState ∧
      (runs .go { s with
        dev.blk.saw.plan := some { thickness := 20, need := 400, baseFeed := 1500, cuts := [] } }).dev.blk.saw.st = .finishing ∧
      (runs .go (granted s 239)).dev.blk.saw.st = .waterWait ∧ (runs .go (granted s 240)).dev.blk.saw.st = .spinup ∧
      (runs .go { s with dev.blk.stop := true }).dev.blk.saw.fault = some .stop := by decide

/-- The cutter between two cuts. -/
def between : State :=
  { loaded .running .indexWait with
    dev.blk.saw.plan := some { thickness := 20, need := 400, baseFeed := 1500, cuts := [aCut true, aCut false] }
    dev.blk.saw.started := true }

/-- `GoAndResumeTakeUpACut`, GO from INDEX_WAIT: the blade off, at speed, and too little water; the premises on the cut. -/
theorem test_hyps_go_on :
    nextPending [aCut true, aCut false] = some 2 ∧ 0 < (aCut false).length ∧ between.dev.blk.saw.feedOn = false ∧
      (runs .go between).dev.blk.saw.st = .spinup ∧
      (runs .go { between with
        dev.blk.saw.blade := true, dev.blk.saw.atSpeed := true, dev.blk.saw.valve := 400 }).dev.blk.saw.st = .cutting ∧
      (runs .go (granted between 0)).dev.blk.saw.holdT = some 30000 := by decide

/-- The faulted cutter. -/
def faulted (r : FaultReason) (entered : Bool) : State :=
  { loaded .faulted .faulted with
    dev.blk.saw.fault := some r, dev.blk.saw.resumeCut := 2, dev.blk.saw.resumeEntered := entered, dev.blk.saw.enc := 70 }

/-- `GoAndResumeTakeUpACut`, RESUME: not faulted, the slab lost, and a cut entered and not. -/
theorem test_hyps_resume :
    replyStatus (runs .resume cutter) = some .wrongState ∧ replyStatus (runs .resume (faulted .slabLost true)) = some .wrongState ∧
      (runs .resume (faulted .jam true)).dev.blk.saw.enc = 70 ∧ (runs .resume (faulted .jam false)).dev.blk.saw.enc = 0 ∧
      (runs .resume (granted (faulted .jam true) 0)).dev.blk.saw.st = .waterWait := by decide

/-! ## Measurement, plant and the timers of the saw -/

/-- A station with a scan of its second input in progress, and three results held. -/
def scanning (s : State) (ma : Nat) : State :=
  { s with
    dev.blk.meas.scan := some { maResult := some ma, readings := 1, last := some 100 }
    dev.blk.meas.maHist := [ma, ma, ma], dev.blk.meas.mbHist := [100, 100, 100] }

/-- `ScansMoveTheValues`: a trigger with and without a scan, no scan, one that goes on, the first input's end, the scan's
end with few results, and its end at the cutter, at the plant, and INERT. -/
theorem test_hyps_scans :
    (runs .sampleTrigger cutter).dev.blk.now = 100 ∧ (runs .sampleTrigger (scanning cutter 5)).dev.blk.meas.missed = 1 ∧
      runs (.analogReading 5) cutter = cutter ∧
      ((runs (.analogReading 109) (scanning cutter 5)).dev.blk.meas.scan.map (·.readings)) = some 2 ∧
      (runs (.analogReading 108) (scanning cutter 901)).dev.blk.meas.jamT = some 500 ∧
      (runs (.analogReading 92) (scanning cutter 701)).dev.blk.meas.derate = true ∧
      (runs (.analogReading 108) { scanning cutter 5 with dev.blk.meas.maHist := [] }).dev.blk.meas.ma = 5 ∧
      ((runs (.analogReading 1023) { cutter with
        dev.blk.meas.scan := some { maResult := none, readings := 31, last := some 0 } }).dev.blk.meas.scan.bind (·.maResult)) =
          some 1023 ∧
      (runs (.analogReading 108) (scanning plant 1023)).dev.blk.plant.published = some 6000 ∧
      (runs (.analogReading 108) (scanning plant 0)).dev.blk.line.halting = true ∧
      (runs (.analogReading 108) (scanning inert 1023)).dev.blk.meas.derate = false := by decide

/-- `BandsAndThePublishedValue` at the edges of the bands. -/
theorem test_hyps_bands :
    bandAfter none 70 = .top ∧ bandAfter none 69 = .high ∧ bandAfter (some .top) 69 = .high ∧ bandAfter (some .low) 21 = .low ∧
      bandAfter (some .low) 22 = .mid ∧ bandAfter (some .low) 9 = .halt ∧ publishedOf (some .halt) false none = some 0 ∧
      publishedOf (some .mid) true (some 100) = some 900 := by decide

/-- The plant with a band, a flow counted, and a correction. -/
def flowing (pulses lastSent overs unders : Nat) (correction : Option Nat) : State :=
  { plant with
    dev.blk.meas.pulses := pulses
    dev.blk.plant :=
      { band := some .mid, turbid := false, overCount := overs, underCount := unders, correction := correction
        published := publishedOf (some .mid) false correction, lastSent := lastSent, spacingT := none, standby := false } }

/-- `FlowWindowsAndTheSpacingTimer`: pulses and windows at work and not, over and not, the fifth, and the under counts. -/
theorem test_hyps_windows :
    (runs .flowPulse plant).dev.blk.meas.pulses = 1 ∧ runs .flowPulse cutter = cutter ∧
      runs .flowWindowEnd cutter = cutter ∧ (runs .flowWindowEnd { inert with dev.blk.meas.windowT := some 1000 }).dev.blk.now = 1000 ∧
      (runs .flowWindowEnd plant).dev.blk.plant.overCount = 0 ∧
      (runs .flowWindowEnd (flowing 240 2000 3 0 none)).dev.blk.plant.overCount = 0 ∧
      (runs .flowWindowEnd (flowing 241 2000 3 0 none)).dev.blk.plant.overCount = 4 ∧
      (runs .flowWindowEnd (flowing 241 2000 4 0 none)).dev.blk.plant.correction = some 410 ∧
      (runs .flowWindowEnd (flowing 190 2000 0 8 (some 100))).dev.blk.plant.underCount = 9 ∧
      (runs .flowWindowEnd (flowing 190 2000 0 9 (some 100))).dev.blk.plant.correction = none ∧
      (runs .flowWindowEnd (flowing 191 2000 0 9 (some 100))).dev.blk.plant.underCount = 0 := by decide

/-- `FlowWindowsAndTheSpacingTimer`: the spacing timer stopped, with nothing new, and with a value to publish. -/
theorem test_hyps_spacing :
    let s : State := { flowing 0 2000 0 0 none with dev.blk.plant.spacingT := some 500 }
    runs .spacingTimerExpiry plant = plant ∧ s.dev.blk.line.heldBudget = none ∧
      (runs .spacingTimerExpiry s).dev.blk.plant.spacingT = none ∧
      ((runs .spacingTimerExpiry { s with dev.blk.plant.lastSent := 800 }).dev.blk.line.queue.map (·.frame.payload)) =
        [bytes2 2000] := by decide

/-- The cutter with its blade and feed on in a cut. -/
def cutting : State :=
  { loaded .running .cutting with
    dev.blk.saw.entered := true, dev.blk.saw.started := true, dev.blk.saw.blade := true, dev.blk.saw.valve := 400
    dev.blk.saw.atSpeed := true, dev.blk.saw.feedOn := true, dev.blk.saw.feedRate := 1500, dev.blk.saw.cmd := 1
    dev.blk.saw.waterWanted := true }

/-- `FaultsStopTheSaw`: each cause with the saw at rest and at work, and its timer stopped. -/
theorem test_hyps_faults :
    let held : State := { cutting with dev.blk.saw.st := .held, dev.blk.saw.holdT := some 30000 }
    cutting.dev.blk.saw.cut? 1 = some (aCut false) ∧ runs .jamTimerExpiry cutter = cutter ∧
      (runs .jamTimerExpiry { cutter with dev.blk.meas.jamT := some 500 }).dev.blk.meas.jam = true ∧
      (runs .jamTimerExpiry { cutting with dev.blk.meas.jamT := some 500 }).dev.blk.saw.fault = some .jam ∧
      runs .dryTimerExpiry cutter = cutter ∧
      (runs .dryTimerExpiry { cutter with dev.blk.meas.dryT := some 500 }).dev.blk.meas.dry = true ∧
      (runs .dryTimerExpiry { cutting with dev.blk.meas.dryT := some 500 }).dev.blk.saw.resumeCut = 1 ∧
      (runs (.stopInput true) cutting).dev.blk.saw.dropT = some 5000 ∧ (runs (.stopInput true) cutter).dev.blk.stop = true ∧
      (runs (.stopInput false) { cutting with dev.blk.stop := true }) = cutting ∧ runs .holdTimerExpiry cutter = cutter ∧
      (runs .holdTimerExpiry { cutter with dev.blk.saw.holdT := some 30000 }).dev.blk.saw.fault = none ∧
      (runs .holdTimerExpiry held).dev.blk.host.notices = [.planFault .water 1 0] := by decide

/-- `SawTimersMoveTheSaw`: each timer running and stopped, with the blade on and off, and a water entry held and not. -/
theorem test_hyps_saw_timers :
    let up : State := { cutting with
      dev.blk.saw.st := .spinup, dev.blk.saw.spinT := some 3000, dev.blk.saw.feedOn := false, dev.blk.saw.cmd := 0 }
    runs .spinTimerExpiry cutter = cutter ∧ up.dev.blk.saw.enc < up.dev.blk.saw.target ∧
      (runs .spinTimerExpiry up).dev.blk.saw.st = .cutting ∧ (runs .spinTimerExpiry up).dev.blk.saw.feedRate = 1500 ∧
      (runs .spinTimerExpiry { cutter with dev.blk.saw.spinT := some 3000 }).dev.blk.saw.atSpeed = false ∧
      runs .idleSpinExpiry cutter = cutter ∧
      (runs .idleSpinExpiry { between with dev.blk.saw.blade := true, dev.blk.saw.idleSpinT := some 9 }).dev.blk.saw.blade = false ∧
      runs .dropTimerExpiry cutter = cutter ∧
      ((runs .dropTimerExpiry { cutter with dev.blk.saw.dropT := some 5000 }).dev.blk.line.queue.map (·.frame.kind)) = [.flowDrop] ∧
      (runs .dropTimerExpiry { cutter with
        dev.blk.saw.dropT := some 5000, dev.shop.rep.ledger.entries := [] }).dev.blk.line.queue = [] := by decide

/-- `CarriageCountsAndPulses`: counts short of, at and past the target, the last cut, and pulses below and above the lag. -/
theorem test_hyps_carriage :
    let near : State := { cutting with dev.blk.saw.enc := 14999, dev.blk.saw.cmd := 15000 }
    cutting.dev.blk.saw.target = 15000 ∧ runs .encCount plant = plant ∧ (runs .encCount cutting).dev.blk.saw.enc = 1 ∧
      (runs .encCount near).dev.blk.saw.st = .indexWait ∧ (runs .encCount near).dev.blk.host.notices = [.cutDone 1 .cross 10] ∧
      (runs .encCount { near with
        dev.blk.saw.plan := some { thickness := 20, need := 400, baseFeed := 1500, cuts := [aCut false] } }).dev.blk.saw.st =
          .finishing ∧
      runs .feedPulse cutter = cutter ∧ (runs .feedPulse { cutting with dev.blk.saw.cmd := 499 }).dev.blk.saw.cmd = 500 ∧
      (runs .feedPulse { cutting with dev.blk.saw.cmd := 500 }).dev.blk.saw.fault = some .stall := by decide

/-- `ChargesOfTheClockAndOfStone`, COST_CLOCK: stopped, the blade off, in a cut, and between two cuts. -/
theorem test_hyps_cost_clock :
    let line (s : State) : State := { s with dev.blk.cost.lines := [(0, aLine .accruing)] }
    runs .costClock { cutter with dev.blk.cost.clockT := none } = { cutter with dev.blk.cost.clockT := none } ∧
      (runs .costClock (line cutter)).dev.blk.cost.lines = [(0, aLine .accruing)] ∧
      ((runs .costClock (line cutting)).dev.blk.cost.lines.map (·.2.tally.water)) = [400] ∧
      ((runs .costClock (line { between with dev.blk.saw.blade := true, dev.blk.saw.valve := 100 })).dev.blk.cost.lines.map
        (fun x => (x.2.tally.blade, x.2.tally.water))) = [(6, 100)] := by decide

/-- The figures of a slab with two pieces. -/
def someFigures : Figures := { parent := { origin := 3, serial := 9 }, area := 1000, rate := 5, abandoned := false, pieceTotal := 700, recorded := 100, unrecorded := 0 }

/-- `ChargesOfTheClockAndOfStone`, the stone: pieces of two jobs, and no piece at all. -/
theorem test_hyps_stone :
    let l : List Settlement := [{ job := 10, area := 400, index := 1 }, { job := 11, area := 300, index := 2 }]
    someFigures.pieceTotal + someFigures.recorded ≤ someFigures.area ∧ (l.map (·.area)).sum = someFigures.pieceTotal ∧
      (∀ x ∈ l, 0 < x.area) ∧ wasteShares someFigures l (some 10) = [(10, 115), (11, 85)] ∧
      wasteShares { someFigures with pieceTotal := 0 } [] (some 10) = [(10, 900)] := by decide

/-! ## The clauses at the edges -/

/-- A dominant stop bit and the BREAK_EVENT of its run, and one after a line idle: `ReceiverTakesACharacter`,
`BreakEventDrainsTheLedger`. -/
theorem test_hyps_bad_stop :
    let bad := runs (.receiveCharacter 1 false false) (rxIn (.frame [0x65]))
    bad.dev.blk.line.badStop = true ∧ bad.dev.blk.line.lastDiscard = some .framing ∧
      (runs .breakEvent bad).dev.blk.line.lastDiscard = some .broken ∧
      (runs .breakEvent (runs .lineIdle bad)).dev.blk.line.lastDiscard = some .framing := by decide

/-- The yield flag: another station's character clears it, the station's own does not: `ReceiverTakesACharacter`. -/
theorem test_hyps_yield :
    let flagged (rx : Rx) : State := { rxIn rx with dev.blk.line.yielding := true }
    (runs (.receiveCharacter 0x65 true true) (flagged .waitIdle)).dev.blk.line.yielding = false ∧
      (runs (.receiveCharacter 0x65 true true) { flagged .waitIdle with
        dev.blk.line.queue := [anEntry .presence (mkFrame .hello []) 1 true] }).dev.blk.line.yielding = true ∧
      (runs (.receiveCharacter 7 false true) { flagged (.frame [0x63, 1, 0, 0, 0]) with
        dev.blk.line.txDone := some .hello }).dev.blk.line.yielding = true ∧
      (runs .breakEvent (flagged .ready)).dev.blk.line.yielding = true := by decide

/-- A SNAP to another station under this station's number sets the time of that number (R57). -/
theorem test_skipped_head_of_the_own_number :
    (runs (.receiveCharacter 9 false true) (rxIn (.frame [0x73, 2]))).dev.blk.pres.heard = [(3, 0), (5, 40)] := by decide

/-- Nothing starts and nothing is offered in the listen window: `TransmitterStartsTheFirstFrame`,
`SyncAskFrameStartsAStream`. -/
theorem test_hyps_listen :
    let s : State := { queueing twoWait with dev.blk.pres.mem := .outside .listen }
    runs .transmitStart s = s ∧ (runs (.syncAsk 5 8 []) s).dev.blk.asking.stream = none ∧
      (runs (.syncAsk 5 8 []) s).dev.blk.asking.askHeard = [(5, 0)] := by decide

/-- The end of the window at a CURRENT replica, at a BUILDING one, and out of the window: `PresenceTimersOfferTheirFrames`. -/
theorem test_hyps_window_end :
    let s : State := { cutter with dev.blk.pres.mem := .outside .listen, dev.blk.pres.listenT := some 1500 }
    (runs .listenTimerExpiry s).dev.blk.pres.mem = .joining ∧
      ((runs .listenTimerExpiry s).dev.blk.line.queue.map (·.frame.kind)) = [.join] ∧
      (runs .listenTimerExpiry { s with dev.shop := (building 3).dev.shop }).dev.blk.pres.mem = .outside .building ∧
      (runs .listenTimerExpiry { cutter with dev.blk.pres.listenT := some 1500 }).dev.blk.pres.mem = .member := by decide

/-- The bytes of requests: a whole one, one of a wrong length, one with a length above 40, one not complete, and READ_PLAN's
code: `PayloadsAndRecordsRoundTrip`. -/
theorem test_hyps_request_bytes :
    requestOf [0x0C, 0] = some .readPlan ∧ requestOf [0x0C, 1, 7] = some (.badRequest 0x0C 1) ∧
      requestOf [0x0C, 41] = some (.badRequest 0x0C 41) ∧ requestOf [0x05, 2, 0x10] = none ∧
      requestOf [0x05, 2, 0x10, 0x01] = some (.scrapSlab 0x1001) ∧ requestFields (.scrapSlab 0x1001) = some (0x05, [0x10, 0x01]) ∧
      requestBytes .readPlan = some [0x0C, 0] ∧ requestFields (.badRequest 1 1) = none ∧ requestFields .lineIdle = none := by
  decide

/-- A frame in emission whose withdrawal was refused. -/
def again (p : Producer) (f : Frame) : List OutEntry := [{ anEntry p f 4 true with again := true }]

/-- `FailedAttemptsReturnToWaiting`: a REBASE and a BUDGET to be withdrawn, the BUDGET in HALT and not, and a REJOIN that
waits. -/
theorem test_hyps_failed_again :
    let rebase : State := { queueing (again .table (mkFrame .rebase [])) with dev.shop.state := .stale }
    let budget (band : Band) (v : Nat) : State :=
      { plant with
        dev.blk.line.queue := again .plant (mkFrame .budget (bytes2 700))
        dev.blk.plant.band := some band, dev.blk.plant.published := some v, dev.blk.plant.lastSent := if v = 0 then 0 else 700 }
    (runs .arbitrationLost rebase).dev.blk.line.queue.map (·.frame.kind) = [.rebase] ∧
      (runs .collision rebase).dev.blk.line.queue = [] ∧ (budget .halt 0).isLive ∧
      (runs .collision (budget .halt 0)).dev.blk.line.heldBudget = none ∧
      (runs .arbitrationLost (budget .low 800)).dev.blk.line.heldBudget = some 800 ∧
      (runs .collision (budget .low 800)).dev.blk.plant.lastSent = 800 ∧
      (runs .arbitrationLost { emitting (mkFrame .hello []) with dev.blk.host.rejoinPending := true }).dev.blk.pres.mem =
        .outside .listen ∧ (emitting (mkFrame .hello [])).dev.blk.saw.planLaw = true := by
  refine ⟨?_, ?_, ⟨?_, ?_⟩, ?_, ?_, ?_, ?_, ?_⟩ <;> decide

/-- `BreakEventDrainsTheLedger`: the attempt of an emission with fewer than 7 failures and at the eighth, and the plant's
last sent value at a CURRENT, a BUILDING and an EMPTY replica. -/
theorem test_hyps_break_attempt :
    let e := emitting (mkFrame .hello [])
    let works : State := { plant with dev.blk.plant.lastSent := 700 }
    (runs .breakEvent { e with dev.blk.line.failures := 6 }).dev.blk.line.failures = 7 ∧
      (runs .breakEvent { e with dev.blk.line.failures := 7 }).dev.blk.host.notices = [.lineFault .broke, .grantChanged 0 500 7] ∧
      (runs .breakEvent { e with dev.blk.line.failures := 7 }).dev.blk.line.restT = some 1000 ∧
      (runs .breakEvent cutter).dev.blk.line.failures = 0 ∧ (runs .breakEvent works).dev.blk.plant.lastSent = 0 ∧
      (runs .breakEvent { works with dev.shop := (building 3).dev.shop }).dev.blk.plant.lastSent = 0 ∧
      (runs .breakEvent { works with dev.shop.state := .empty }).dev.blk.plant.lastSent = 700 ∧
      works.dev.shop.sound = true ∧ (building 2).dev.shop.sound = true ∧ (building 3).dev.shop.sound = true := by decide

/-- A GONE of no station's number at a CURRENT replica, and in a build: `JoinAndGoneMoveTheMemberSet`,
`BuildTakesChangeFrames`. -/
theorem test_hyps_gone_out_of_range :
    (runs (.gone 1 8 [0]) cutter).dev.shop.rep = aShop.rep ∧ (runs (.gone 1 8 [16]) cutter).dev.shop.rep = aShop.rep ∧
      (runs (.gone 1 10 [0]) (building 1)).dev.shop.state = .building ∧
      (runs (.gone 1 10 [255]) (building 1)).dev.shop.state = .building := by decide

/-- `ConsumeFrameLeavesItsRemnants`: three remnants, two of which one id is held, and one that finds no slot. -/
theorem test_hyps_remnants :
    let i : SlabId := { origin := 3, serial := 9 }
    let held : Slab := { freeSlab with id := { origin := 3, serial := 1 } }
    let crowded : State := { cutter with dev.shop.rep.slabs := (2, heldSlab) :: [(0, held)] }
    ((runs (.consume 3 8 (consumePayload i false 0 [aRemnant 1, aRemnant 2, aRemnant 3])) cutter).dev.shop.rep.slabs.map
        (·.1)) = [0, 1, 2, 3, 4] ∧
      ((runs (.consume 3 8 (consumePayload i false 0 [aRemnant 1, aRemnant 2])) { crowded with
        dev.shop.rep.slabs := [(0, held), (2, heldSlab)] }).dev.shop.rep.slabs.map (fun x => (x.1, x.2.id.serial))) =
          [(0, 1), (1, 2)] := by decide

/-- The table full but for the slot its parent leaves: the second remnant finds none. -/
theorem test_hyps_remnants_full :
    let i : SlabId := { origin := 3, serial := 9 }
    let full : Slots Slab := (List.range 160).map (fun k =>
      (k, if k = 7 then heldSlab else { freeSlab with id := { origin := 2, serial := k + 1 } }))
    let t := runs (.consume 3 8 (consumePayload i false 0 [aRemnant 1, aRemnant 2])) { cutter with dev.shop.rep.slabs := full }
    t.dev.shop.rep.slabs.length = 160 ∧ (t.dev.shop.rep.slab? { origin := 3, serial := 1 }).isSome = true ∧
      (t.dev.shop.rep.slab? { origin := 3, serial := 2 }) = none ∧ Slots.wf full = true := by decide +kernel

/-- `HelloFrameIsItsHead`: the notice of the entry into MUTE stands last. -/
theorem test_hyps_mute_notice :
    (runs (.hello 3 8 []) { queueing twoWait with dev.blk.pres.mem := .joining }).dev.blk.host.notices =
      [.duplicateStation .hello] ∧
    (runs (.hello 3 8 []) { cutter with dev.blk.pres.mem := .outside .listen }).dev.blk.host.notices =
      [.duplicateStation .hello] := by decide

/-- R192: the DUPLICATE_STATION of a change frame is posted after the frame's effect, at a MEMBER whose grant the frame moves
and whose replica it makes STALE, and at a JOINING station, which enters MUTE. -/
theorem test_duplicate_is_told_after_the_effect :
    (runs (.flowDrop 3 8 []) cutter).dev.blk.host.notices = [.grantChanged 0 500 8, .duplicateStation .flowDrop] ∧
      (runs (.slabAdd 3 9 []) cutter).dev.blk.host.notices =
        [.stale 7 9, .grantChanged 0 500 7, .duplicateStation .slabAdd] ∧
      (runs (.flowDrop 3 8 []) { cutter with dev.blk.pres.mem := .joining }).dev.blk.pres.mem = .mute ∧
      (runs (.flowDrop 3 8 []) { cutter with dev.blk.pres.mem := .joining }).dev.blk.host.notices =
        [.grantChanged 0 500 8, .duplicateStation .flowDrop] := by decide

/-- `SnapFrameBuildsTheReplica`: a first SNAP that is END, with counts of zero and others, outside a build and of a lower
server in one. -/
theorem test_hyps_first_end :
    let stale : State := { cutter with dev.shop.state := .stale }
    let b := building 2
    (runs (.snap 5 3 8 (snapOf 0 (.fin 0 0 0 0))) stale).dev.shop.state = .current ∧
      (runs (.snap 5 3 8 (snapOf 0 (.fin 0 0 0 1))) stale).dev.shop = stale.dev.shop ∧
      (runs (.snap 1 3 8 (snapOf 0 (.fin 0 0 0 0))) b).dev.shop.state = .current ∧
      (runs (.snap 1 3 8 (snapOf 0 (.fin 1 0 0 0))) b).dev.shop.state = .stale := by decide

/-! ## Change frames in a build -/

/-- Whether a command leaves the build of a state standing. -/
def builds (c : Instr) (s : State) : Bool := (runs c s).dev.shop.state == .building

/-- `BuildTakesChangeFrames`: a gap, a void payload, the member section, and the ledger section by each kind. -/
theorem test_hyps_build_ledger :
    let c := byte1 (Role.code .cutter)
    builds (.flowDrop 5 12 []) (building 3) = false ∧ builds (.flowDrop 5 10 [1]) (building 2) = true ∧
      builds (.flowDrop 5 10 []) (building 1) = true ∧ builds (.join 9 10 [c]) (building 1) = false ∧
      builds (.budget 1 10 (bytes2 700)) (building 2) = false ∧ builds (.budget 5 10 (bytes2 700)) (building 2) = true ∧
      builds (.flowAsk 5 10 (bytes2 500)) (building 2) = false ∧ builds (.flowAsk 9 10 (bytes2 500)) (building 2) = true ∧
      builds (.flowDrop 5 10 []) (building 2) = false ∧ builds (.flowDrop 9 10 []) (building 2) = true ∧
      builds (.join 5 10 [c]) (building 2) = false ∧
      ((runs (.join 9 10 [c]) (building 2)).dev.shop.rep.members.map (·.station)) = [1, 3, 5, 9] ∧
      builds (.gone 1 10 [5]) (building 2) = false ∧ builds (.gone 1 10 [9]) (building 2) = true ∧
      ((runs (.flowDrop 5 10 []) (building 3)).dev.shop.rep.ledger.entries.map (·.station)) = [3] := by decide

/-- A build of the cutter with its stream marks. -/
def marked (slabs jobs : Option Nat) : State :=
  { building 3 with
    dev.shop.build := some
      { server := 2, expGen := 9, expSeq := 4, reached := 3, slabMark := slabs, jobMark := jobs
        aside := aShop.rep, asideState := .stale, asideGen := 6 } }

/-- `BuildTakesChangeFrames`: the stock before and after the stream's mark. -/
theorem test_hyps_build_stock :
    let add := slabAddPayload 8 7 20 1000 500 0 0
    let own : SlabId := { origin := 3, serial := 9 }
    let other : SlabId := { origin := 9, serial := 9 }
    (runs (.claim 1 10 [0x10, 0x01]) (building 4)).dev.shop.rep.slab? { origin := 1, serial := 1 } =
        some { freeSlab with state := .claimed, holder := some 1 } ∧
      builds (.claim 1 10 [0x10, 0x01]) (building 3) = false ∧ builds (.claim 5 10 [0x10, 0x01]) (building 3) = true ∧
      ((runs (.release 3 10 [0x30, 0x09]) (building 3)).dev.shop.rep.slabs.map (·.2.holder)) = [none, none, some 5] ∧
      builds (.slabAdd 1 10 (slabAddPayload 1 7 20 1000 500 0 0)) (building 3) = true ∧
      ((runs (.slabAdd 5 10 add) (marked (some 1) none)).dev.shop.rep.slabs.map (·.1)) = [0, 1, 2, 3] ∧
      ((runs (.slabAdd 5 10 add) (marked (some 0) none)).dev.shop.rep.looseSlabs.map (·.id.origin)) = [5] ∧
      builds (.consume 9 10 (consumePayload other false 0 [])) (marked (some 1) none) = false ∧
      builds (.consume 9 10 (consumePayload other false 0 [])) (marked (some 0) none) = true ∧
      ((runs (.consume 3 10 (consumePayload own false 0 [aRemnant 1])) (marked (some 1) none)).dev.shop.rep.slabs.map
        (·.1)) = [0, 1, 3] ∧
      ((runs (.consume 3 10 (consumePayload own false 0 [aRemnant 1])) (building 3)).dev.shop.rep.looseSlabs.map
        (·.id.serial)) = [1] ∧
      (runs (.consume 5 10 (consumePayload own false 0 [])) (building 3)).dev.shop.rep = aShop.rep := by decide

/-- `BuildTakesChangeFrames`: JOB_OPEN before and after the stream's mark. -/
theorem test_hyps_build_jobs :
    let none_closed (s : State) : State := { s with dev.shop.rep.jobs := [(0, aJob 10 .opened [] none)] }
    (runs (.jobOpen 1 10 (bytes2 10)) (building 3)).dev.shop.rep = aShop.rep ∧
      ((runs (.jobOpen 1 10 (bytes2 12)) (building 3)).dev.shop.rep.jobs.map (·.2.state)) = [.opened, .closing, .opened] ∧
      ((runs (.jobOpen 1 10 (bytes2 9)) (marked none (some 3))).dev.shop.rep.jobs.map (·.1)) = [0, 1, 2, 3] ∧
      builds (.jobOpen 1 10 (bytes2 9)) (marked none (some 2)) = false ∧
      ((runs (.jobOpen 1 10 (bytes2 9)) (none_closed (building 3))).dev.shop.rep.looseJobs.map (·.number)) = [9] ∧
      (runs (.jobClose 1 10 (bytes2 10)) (building 3)).dev.shop.rep.jobs.map (·.2.state) = [.closing, .closing, .closed] := by
  decide

/-! ## The own frames -/

/-- The cutter 3 joining, with no water entry, its JOIN completed. -/
def joining : State :=
  { sent .join with
    dev.blk.pres.mem := .joining, dev.blk.pres.helloT := none, dev.blk.saw.grant := 0
    dev.shop.rep.members := [{ station := 1, role := .plant }, { station := 5, role := .cutter }]
    dev.shop.rep.ledger.entries := [{ station := 5, asked := 600, granted := 500 }] }

/-- The premises of the own frame: a completed sending, and what the line takes. -/
theorem test_hyps_own_frame : joining.takes 8 3 [0] ∧ joining.ownFrame 3 .join ∧ (sent .jobClose).ownFrame 3 .jobClose := by
  refine ⟨⟨⟨?_, ?_, ?_, ?_⟩, ?_, ?_⟩, ⟨?_, ?_, ?_⟩, ?_, ?_, ?_⟩ <;> decide

/-- `OwnJoinAndGoneMoveTheMembership`: the own JOIN while JOINING and as a member, the serial after the highest one and with
none, another's GONE, and its own in MEMBER and in JOINING. -/
theorem test_hyps_own_join_and_gone :
    let c := byte1 (Role.code .cutter)
    let queue : List OutEntry :=
      [anEntry .presence (mkFrame .gone [5]) 1 false, anEntry .saw (mkFrame .flowAsk (bytes2 400)) 2 false]
    let dry : State :=
      { queueing queue with
        dev.shop.rep.ledger.entries := [], dev.blk.saw.grant := 0 }
    (runs (.join 3 8 [c]) joining).dev.blk.pres.mem = .member ∧
      (runs (.join 3 8 [c]) joining).dev.blk.pres.helloT = some 1000 ∧
      (runs (.join 3 8 [c]) joining).dev.blk.pres.heard = [(1, 0), (3, 0), (5, 40)] ∧
      (runs (.join 3 8 [c]) joining).dev.blk.host.notices = [.joined 3 .cutter] ∧
      (runs (.join 3 8 [c]) joining).dev.blk.pres.serial = 10 ∧
      (runs (.join 3 8 [c]) { joining with dev.shop.rep.slabs := [] }).dev.blk.pres.serial = 1 ∧
      (runs (.join 3 8 [c]) (sent .join)).dev.blk.pres.mem = .member ∧
      ((runs (.gone 1 8 [5]) dry).dev.blk.line.queue.map (·.frame.kind)) = [.flowAsk] ∧
      (runs (.gone 5 8 [3]) dry).dev.blk.pres.mem = .joining ∧
      ((runs (.gone 5 8 [3]) dry).dev.blk.line.queue.map (·.frame.kind)) = [.join] ∧
      (runs (.gone 5 8 [3]) dry).dev.blk.host.notices = [.goneSelf 8] ∧
      (runs (.gone 5 8 [3]) { dry with dev.blk.pres.mem := .joining }).dev.blk.host.notices = [] := by decide

/-- `OwnJoinAndGoneMoveTheMembership`, an own JOIN of a member: the TALLY_DONE of the job that the leave closes stands ahead
of JOINED, and the zero report withdrawn at the leave gives its slot up before the RECLAIM is offered at the entry (R55). -/
theorem test_hyps_join_leaves_first :
    let last : Job := { aJob 11 .closing [3] none with closer := some 3 }
    let zero := mkFrame .costReport (reportPayload 11 Tally.zero)
    let s : State := { joining with
      dev.shop.rep.members := aShop.rep.members, dev.shop.rep.jobs := [(1, last)]
      dev.blk.planner.plan := some { aPlan .planning with slab := heldSlab.id }
      dev.blk.cost.reports := [.zero 11]
      dev.blk.line.queue := List.replicate 11 (anEntry .host (mkFrame .slabAdd []) 1 false) ++ [anEntry .cost zero 2 false] }
    let t := runs (.join 3 8 [byte1 (Role.code .cutter)]) s
    s.takes 8 3 [0] ∧ s.ownFrame 3 .join ∧ memberOf 3 s.dev.shop.rep = true ∧
      t.dev.blk.host.notices = [.tallyDone 11 true 8, .joined 3 .cutter] ∧ t.dev.blk.cost.reports = [] ∧
      t.dev.blk.line.queue.any (OutEntry.isOf .planner isReclaim) = true ∧ t.dev.blk.line.waitList = [] := by
  refine ⟨⟨⟨?_, ?_, ?_, ?_⟩, ?_, ?_⟩, ⟨?_, ?_, ?_⟩, ?_, ?_, ?_, ?_, ?_⟩ <;> decide +kernel

/-- `OwnJoinAndGoneMoveTheMembership`, a GONE of its own at a full queue: the slot of the RELEASE goes to the JOIN, and the
COST_REPORT on the wait list stays there (R62, R14). -/
theorem test_hyps_gone_frees_a_slot_for_join :
    let s : State :=
      { queueing (anEntry .planner (mkFrame .release (bytes2 heldSlab.id.code)) 1 false ::
          List.replicate 11 (anEntry .host (mkFrame .slabAdd []) 2 false)) with
        dev.shop.rep.ledger.entries := [], dev.blk.saw.grant := 0
        dev.blk.line.waitList := [{ producer := .cost, frame := mkFrame .costReport (reportPayload 12 Tally.zero) }] }
    let t := runs (.gone 5 8 [3]) s
    s.takes 8 5 [3] ∧ s.dev.blk.line.sound = true ∧ s.dev.blk.line.waits .presence (fun f => f.kind == .hello) = false ∧
      t.dev.blk.line.queue.any (OutEntry.isOf .presence isJoin) = true ∧
      (t.dev.blk.line.waitList.map (·.producer)) = [.cost] := by
  refine ⟨⟨⟨?_, ?_, ?_, ?_⟩, ?_, ?_⟩, ?_, ?_, ?_, ?_⟩ <;> decide +kernel

/-- The cutter whose own frame of the planner has come, with a plan and the record of its slab. -/
def outcome (k : Kind) (q : Plan) (st : SlabState) (holder : Option Nat) (pieces : List Piece) : State :=
  { sent k with
    dev.blk.planner.plan := some q, dev.blk.planner.pieces := pieces
    dev.shop.rep.slabs := [(0, { freeSlab with state := st, holder := holder })] }

/-- A plan that waits for its CLAIM. -/
def claiming : Plan :=
  { aPlan .claiming with placements := [], offcuts := [], cuts := [], piece := some 2 }

/-- `PlannerTakesItsOutcomes`, CLAIM and RELEASE: taken with the piece and with none, void; taken, void and set aside. -/
theorem test_hyps_claim_and_release :
    let slab : Offcut := { x := 0, y := 0, length := 3000, width := 1500 }
    let releasing : Plan := { aPlan .planning with placements := [], releasing := true }
    let t := runs (.claim 3 8 [0x10, 0x01]) (outcome .claim claiming .free none [aPiece 2])
    let line : CostLine := { aLine .accruing with tally := Tally.zero }
    (bestOffcut (aPiece 2) [slab] 0 none).isSome = true ∧ t.dev.blk.host.notices = [.piecePlaced 2 freeSlab.id 1 false] ∧
      (t.dev.blk.planner.plan.map (fun q => (q.state, q.placements.length))) = some (.planning, 1) ∧
      ((runs (.claim 3 8 [0x10, 0x01]) (outcome .claim claiming .free none [])).dev.blk.line.queue.map (·.frame.kind)) =
        [.release] ∧
      (runs (.claim 3 8 [0x10, 0x01]) { outcome .claim claiming .claimed (some 5) [] with
        dev.blk.cost.lines := [(4, line)] }).dev.blk.cost.lines = [] ∧
      (runs (.release 3 8 [0x10, 0x01]) (outcome .release releasing .claimed (some 3) [])).dev.blk.planner.plan = none ∧
      (runs (.release 3 8 [0x10, 0x01]) (outcome .release releasing .free none [])).dev.blk.planner.plan = none ∧
      ((runs (.release 3 8 [0x10, 0x01]) (outcome .release releasing .orphaned (some 3) [])).dev.blk.planner.plan.map
        (·.keptRelease)) = some true := by decide

/-- `PlannerTakesItsOutcomes`, CONSUME: taken, set aside, and void. -/
theorem test_hyps_own_consume :
    let p := consumePayload freeSlab.id false 0 []
    let s (st : SlabState) (h : Nat) : State := outcome .consume (aPlan .consuming) st (some h) []
    (runs (.consume 3 8 p) (s .claimed 3)).dev.blk.planner.plan = none ∧
      (runs (.consume 3 8 p) { s .claimed 3 with dev.blk.saw.st := .finishing }).dev.blk.saw.st = .idle ∧
      (runs (.consume 3 8 p) (s .claimed 3)).dev.blk.host.notices = [.planDone freeSlab.id 1 false] ∧
      ((runs (.consume 3 8 p) (s .orphaned 3)).dev.blk.planner.plan.map (·.keptConsume)) = some true ∧
      ((runs (.consume 3 8 p) (s .claimed 5)).dev.blk.planner.plan.map (·.fault)) = some (some .slabLost) ∧
      (runs (.consume 3 8 p) { s .claimed 5 with dev.blk.saw.st := .finishing }).dev.blk.saw.fault = some .slabLost := by decide

/-- `PlannerTakesItsOutcomes`, RECLAIM: taken with each frame set aside, void while ORPHANED here, and lost. -/
theorem test_hyps_own_reclaim :
    let q : Plan := { aPlan .reclaiming with back := .loadWait, placements := [] }
    let s (q : Plan) (st : SlabState) (h : Nat) : State := outcome .reclaim q st (some h) []
    let r : Instr := .reclaim 3 8 [0x10, 0x01]
    ((runs r (s { q with keptRelease := true } .orphaned 3)).dev.blk.line.queue.map (·.frame.kind)) = [.release] ∧
      ((runs r (s { q with keptConsume := true } .orphaned 3)).dev.blk.line.queue.map (·.frame.kind)) = [.consume] ∧
      ((runs r (s q .claimed 3)).dev.blk.planner.plan.map (·.state)) = some .loadWait ∧
      (runs r { s q .orphaned 3 with dev.shop.rep.members := [] }).dev.blk.planner.plan = some q ∧
      (runs r (s { q with keptRelease := true } .claimed 5)).dev.blk.planner.plan = none ∧
      (runs r (s { q with keptRelease := true } .claimed 5)).dev.blk.host.notices = [.planFault .slabLost 0 0] ∧
      ((runs r (s q .claimed 5)).dev.blk.planner.plan.map (·.state)) = some .faulted := by decide +kernel

/-! ## The planner's looks, the saw, the plant and the cost lines -/

/-- `PieceRequestsAndTheSearch`: a search that passes a piece by and takes the next, and two slabs of one piece. -/
theorem test_hyps_search_order :
    let s : State := { slabless with
      dev.blk.planner.pieces := [{ aPiece 8 with length := 3500 }]
      dev.shop.rep.slabs := [(0, freeSlab), (4, { heldSlab with thickness := 20, state := .free, holder := none })] }
    ((runs (submit 2 10 600) s).dev.blk.planner.pieces.map (·.state)) = [.waitStock, .queued] ∧
      (runs (submit 2 10 600) s).dev.blk.host.notices = [.pieceWaiting 8 10] ∧
      ((runs (submit 2 10 600) s).dev.blk.planner.plan.map (·.slab)) = some { origin := 3, serial := 9 } := by decide

/-- `PieceRequestsAndTheSearch`, the look in PLANNING: no room, no candidate, none placeable, one placed that leaves room,
one that leaves none, and a plan whose RELEASE is on its way. -/
theorem test_hyps_look :
    let full : List Placement := List.replicate 6
      { piece := aPiece 1, x := 0, y := 0, length := 600, width := 400, rotated := false, done := false }
    let with_ (q : Plan) : State := { cutter with dev.blk.planner.plan := some q }
    let q := aPlan .planning
    (runs (submit 2 10 600) (with_ { q with placements := full })).dev.blk.saw.st = .loadWait ∧
      (runs (.submitPiece 2 10 8 20 600 400 0) (with_ q)).dev.blk.planner.sealT = some 2000 ∧
      ((runs (.submitPiece 2 10 8 20 600 400 0) (with_ q)).dev.blk.planner.pieces.map (·.id)) = [2] ∧
      (runs (submit 2 10 3990) (with_ q)).dev.blk.saw.st = .loadWait ∧
      (runs (submit 2 10 600) (with_ q)).dev.blk.host.notices = [.piecePlaced 2 freeSlab.id 2 false] ∧
      (runs (submit 2 10 600) (with_ q)).dev.blk.planner.sealT = some 2000 ∧
      (runs (submit 2 10 600) (with_ { q with placements := full.take 5 })).dev.blk.saw.st = .loadWait ∧
      (runs (submit 2 10 600) (with_ { q with releasing := true })).dev.blk.planner.sealT = none := by decide +kernel

/-- `AbandonEndsThePlan`: a lost slab at a LIVE station, and a line that is DUE. -/
theorem test_hyps_abandon_more :
    let lost : State := { loaded .faulted .faulted with
      dev.shop.rep.slabs := [], dev.blk.planner.plan := some { aPlan .faulted with fault := some .slabLost } }
    lost.isLive ∧ replyStatus (runs .abandonPlan lost) = some .ok ∧
      (runs .abandonPlan lost).dev.blk.saw.st = .idle ∧ (runs .abandonPlan lost).dev.blk.planner.plan = none ∧
      ((runs .abandonPlan { lost with dev.shop.rep.slabs := [(0, freeSlab)] }).dev.blk.planner.plan.map (·.state)) =
        some .claiming ∧
      ((runs .abandonPlan { loaded .loadWait .loadWait with
        dev.blk.cost.lines := [(0, aLine .due)] }).dev.blk.line.queue.map (·.frame.kind)) = [.release, .costReport] := by
  refine ⟨⟨?_, ?_⟩, ?_, ?_, ?_, ?_, ?_⟩ <;> decide

/-- `GoAndResumeTakeUpACut`: GO between two cuts with the blade on and not at speed, and the ask check: an entry that asks
too little, one that asks enough, and a FLOW_DROP withdrawn. -/
theorem test_hyps_go_more :
    let s := loaded .loadWait .loadWait
    let asking (q : Nat) : State := { s with dev.shop.rep.ledger.entries := [{ station := 3, asked := q, granted := 0 }] }
    (runs .go { between with dev.blk.saw.blade := true, dev.blk.saw.spinT := some 9, dev.blk.saw.valve := 400 }).dev.blk.saw.spinT =
        some 9 ∧
      ((runs .go (asking 300)).dev.blk.line.queue.map (·.frame.payload)) = [bytes2 400] ∧
      (runs .go (asking 400)).dev.blk.line.queue = [] ∧
      (runs .go { asking 400 with
        dev.blk.line.queue := [anEntry .saw (mkFrame .flowDrop []) 1 false] }).dev.blk.line.queue = [] := by decide

/-- `SawTimersMoveTheSaw`: a stall on entry to CUTTING, and a target that is reached already, of a cut with another after it
and of the last. -/
theorem test_hyps_spin_more :
    let up (enc cmd : Nat) : State := { cutting with
      dev.blk.saw.st := .spinup, dev.blk.saw.spinT := some 3000, dev.blk.saw.feedOn := false, dev.blk.saw.enc := enc
      dev.blk.saw.cmd := cmd }
    (runs .spinTimerExpiry (up 0 500)).dev.blk.saw.fault = some .stall ∧
      (runs .spinTimerExpiry (up 0 500)).dev.blk.saw.cmd = 501 ∧
      (runs .spinTimerExpiry (up 15000 0)).dev.blk.saw.st = .indexWait ∧
      (runs .spinTimerExpiry (up 15000 0)).dev.blk.saw.idleSpinT = some 23000 ∧
      (runs .spinTimerExpiry { up 15000 0 with
        dev.blk.saw.plan := some { thickness := 20, need := 400, baseFeed := 1500, cuts := [aCut false] } }).dev.blk.saw.st =
          .finishing := by decide

/-- The cutter's saw in a state, with a grant of 500 and the need of 400. -/
def sawIn (st : SawState) (blade atSpeed : Bool) : State :=
  { cutting with
    dev.blk.saw.st := st, dev.blk.saw.blade := blade, dev.blk.saw.atSpeed := atSpeed
    dev.blk.saw.feedOn := st = .cutting, dev.blk.saw.valve := if blade then 400 else 0 }

/-- The plant's BUDGET that leaves the cutter 3 a grant. -/
def grants (v : Nat) : Instr := .budget 1 8 (bytes2 v)

/-- `GrantChangesMoveTheSaw`: at rest, between two cuts, CUTTING and SPINUP, each side of 25% and 60% of the need. -/
theorem test_hyps_grant_changes :
    (runs (grants 300) (sawIn .loadWait false false)).dev.blk.saw.grant = 300 ∧
      (runs (grants 300) (sawIn .loadWait false false)).dev.blk.host.notices = [.grantChanged 300 500 8] ∧
      (runs (grants 100) (sawIn .indexWait true true)).dev.blk.saw.valve = 100 ∧
      (runs (grants 99) (sawIn .indexWait true true)).dev.blk.saw.blade = false ∧
      (runs (grants 99) (sawIn .indexWait false false)).dev.blk.saw.blade = false ∧
      (runs (grants 240) (sawIn .cutting true true)).dev.blk.saw.feedRate = 900 ∧
      (runs (grants 239) (sawIn .cutting true true)).dev.blk.saw.st = .held ∧
      (runs (grants 239) (sawIn .cutting true true)).dev.blk.saw.blade = true ∧
      (runs (grants 99) (sawIn .cutting true true)).dev.blk.saw.blade = false ∧
      (runs (grants 240) (sawIn .spinup true false)).dev.blk.saw.valve = 240 ∧
      (runs (grants 239) (sawIn .spinup true false)).dev.blk.saw.st = .waterWait := by decide +kernel

/-- `GrantChangesMoveTheSaw`: WATER_WAIT and HELD, with STOP and without. -/
theorem test_hyps_grant_changes_held :
    let stop (s : State) : State := { s with dev.blk.stop := true }
    (runs (grants 239) (sawIn .waterWait false false)).dev.blk.saw.st = .waterWait ∧
      (runs (grants 240) (sawIn .waterWait false false)).dev.blk.saw.st = .spinup ∧
      (runs (grants 240) (stop (sawIn .waterWait false false))).dev.blk.saw.fault = some .stop ∧
      (runs (grants 240) (sawIn .held true true)).dev.blk.saw.st = .cutting ∧
      (runs (grants 240) (sawIn .held true false)).dev.blk.saw.st = .spinup ∧
      (runs (grants 240) (sawIn .held false false)).dev.blk.saw.spinT = some 3000 ∧
      (runs (grants 240) (stop (sawIn .held false false))).dev.blk.saw.st = .faulted ∧
      (runs (grants 239) (sawIn .held true true)).dev.blk.saw.valve = 239 ∧
      (runs (grants 100) (sawIn .held false false)).dev.blk.saw.spinT = some 3000 ∧
      (runs (grants 100) (stop (sawIn .held false false))).dev.blk.saw.st = .faulted ∧
      (runs (grants 99) (sawIn .held true true)).dev.blk.saw.blade = false := by decide +kernel

/-- `FlowWindowsAndTheSpacingTimer`: the fifth over window with a new correction, a window with no band, and the spacing timer
with a BUDGET held: the same value, another in emission, and another that waits. -/
theorem test_hyps_windows_more :
    let held (v : Nat) (out : Bool) : State := { flowing 0 2000 0 0 none with
      dev.blk.plant.spacingT := some 500, dev.blk.line.queue := [anEntry .plant (mkFrame .budget (bytes2 v)) 1 out] }
    (runs .flowWindowEnd (flowing 241 2000 4 7 (some 100))).dev.blk.plant.underCount = 0 ∧
      (runs .flowWindowEnd (flowing 241 2000 4 7 (some 100))).dev.blk.plant.correction = some 410 ∧
      (runs .flowWindowEnd { flowing 9 0 3 2 none with dev.blk.plant.band := none }).dev.blk.plant.underCount = 0 ∧
      (runs .spacingTimerExpiry (held 2000 false)).dev.blk.line = (held 2000 false).dev.blk.line ∧
      (runs .spacingTimerExpiry (held 700 true)).dev.blk.line.heldBudget = some 700 ∧
      (runs .spacingTimerExpiry (held 700 false)).dev.blk.line.heldBudget = some 2000 := by decide

/-- The plant 1 with a published value, a last sent one and the ledger's plant. -/
def plantWith (published : Option Nat) (lastSent : Nat) (other : Option Nat) : State :=
  { flowing 0 lastSent 0 0 none with
    dev.blk.plant.published := published
    dev.shop.rep.members := aShop.rep.members ++ [{ station := 9, role := .plant }]
    dev.shop.rep.ledger.plant := other }

/-- The same, its own frame just completed. -/
def plantSent (k : Kind) (s : State) : State := { s with dev.blk.line.txDone := some k }

/-- `PlantStandsByAndTakesItsOutcomes`: another plant's BUDGET in each case, and its own one taken, for another plant, and
void otherwise. -/
theorem test_hyps_plant_budgets :
    let stood (s : State) : State := { s with dev.blk.plant.standby := true }
    let sent (s : State) : State := plantSent .budget s
    (runs (.budget 9 8 (bytes2 700)) (plantWith (some 2000) 5 none)).dev.blk.plant.standby = true ∧
      (runs (.budget 9 8 (bytes2 700)) (plantWith (some 2000) 5 none)).dev.blk.host.notices = [.plantConflict 9 8] ∧
      (runs (.budget 9 8 (bytes2 700)) (stood (plantWith (some 2000) 5 none))).dev.blk.plant.lastSent = 700 ∧
      (runs (.budget 9 8 (bytes2 700)) (plantWith none 5 (some 9))).dev.blk.plant.lastSent = 700 ∧
      (runs (.budget 1 8 (bytes2 8000)) (sent (plantWith none 5 (some 1)))).dev.blk.plant.lastSent = 8000 ∧
      (runs (.budget 1 8 (bytes2 700)) (sent (plantWith none 5 (some 9)))).dev.blk.plant.standby = true ∧
      (runs (.budget 1 8 (bytes2 700)) { sent (plantWith none 5 (some 1)) with
        dev.shop.rep.members := [] }).dev.blk.plant.lastSent = 1000 := by decide

/-- `PlantStandsByAndTakesItsOutcomes`: the absence at a GONE and at a JOIN of the plant, with and without a published
value, the own JOIN, and the own REBASE. -/
theorem test_hyps_plant_absence :
    let c := byte1 (Role.code .plant)
    let s := plantWith (some 2000) 1000 (some 9)
    let stood (s : State) : State := { s with dev.blk.plant.standby := true }
    let joins (s : State) : State := plantSent .join { s with dev.blk.pres.mem := .joining }
    let stale (s : State) : State := plantSent .rebase { s with dev.shop.state := .stale }
    s.isLive ∧ (runs (.gone 3 8 [9]) (stood s)).dev.blk.plant.standby = false ∧
      (runs (.gone 3 8 [9]) (stood s)).dev.blk.line.heldBudget = some 2000 ∧
      (runs (.join 9 8 [c]) (plantWith none 1000 (some 9))).dev.blk.plant.lastSent = 0 ∧
      (runs (.join 1 8 [c]) (joins s)).dev.blk.plant.standby = true ∧
      (runs (.join 1 8 [c]) (joins (stood (plantWith none 1000 (some 1))))).dev.blk.plant.lastSent = 0 ∧
      (runs (.join 1 8 [c]) (joins (plantWith (some 0) 1000 (some 1)))).dev.blk.line.heldBudget = none ∧
      (runs (.rebase 1 8 []) (stale (plantWith none 5 none))).dev.blk.plant.lastSent = 1000 ∧
      (runs (.rebase 1 8 []) (stale s)).dev.blk.plant.standby = true := by
  refine ⟨⟨?_, ?_⟩, ?_, ?_, ?_, ?_, ?_, ?_, ?_, ?_⟩ <;> decide

/-- A BUDGET that waits leaves the queue on entering standby (R97) with the ledger's budget as the last sent value and no
spacing begun, and a stale one of a unit that stands by already leaves it when the replica becomes CURRENT (R96, R114). -/
theorem test_standby_withdraws_the_held_budget :
    let holds (s : State) : State :=
      { s with dev.blk.line := s.dev.blk.line.offer .plant (mkFrame .budget (bytes2 900)) }
    let s := holds (plantWith (some 2000) 5 none)
    let stale : State := plantSent .rebase { holds (plantWith (some 2000) 5 (some 9)) with
      dev.shop.state := .stale, dev.blk.plant.standby := true }
    s.dev.blk.line.heldBudget = some 900 ∧ (runs (.budget 9 8 (bytes2 700)) s).dev.blk.line.heldBudget = none ∧
      (runs (.budget 9 8 (bytes2 700)) s).dev.blk.plant.lastSent = 700 ∧
      (runs (.budget 9 8 (bytes2 700)) s).dev.blk.plant.spacingT = none ∧
      (runs (.rebase 1 8 []) stale).dev.blk.line.heldBudget = none ∧
      (runs (.rebase 1 8 []) stale).dev.blk.plant.standby = true := by decide

/-- The cutter with a line of job 10 in slot 4, and the reports it holds. -/
def reporting (x : CostLine) (reports : List Report) : State :=
  { cutter with dev.blk.cost.lines := [(4, x)], dev.blk.cost.reports := reports }

/-- `CostLinesReport`: a JOB_CLOSE with a line and no placement open, with one open, with the first-job hold, and with no
line; and the zero report withdrawn at a GONE while a line's report stays. -/
theorem test_hyps_job_close_reports :
    let states (s : State) : List ReportState := s.dev.blk.cost.lines.map (·.2.state)
    let line := aLine .accruing
    let zero := mkFrame .costReport (reportPayload 11 Tally.zero)
    let s := reporting line []
    let two : State := { reporting { line with job := 11, state := .sent, tally := Tally.zero } [.zero 11, .line 4 11] with
      dev.blk.line.queue := [anEntry .cost zero 1 false, anEntry .cost { zero with line := some 4 } 2 false] }
    states (runs (.jobClose 1 8 (bytes2 10)) s) = [.sent] ∧
      ((runs (.jobClose 1 8 (bytes2 10)) s).dev.blk.line.queue.map (fun e => (e.frame.payload, e.frame.line))) =
        [(reportPayload 10 line.tally, some 4)] ∧
      states (runs (.jobClose 1 8 (bytes2 10)) (reporting { line with openCount := 1 } [])) = [.due] ∧
      states (runs (.jobClose 1 8 (bytes2 10)) { s with dev.blk.cost.first := some (10, 4) }) = [.due] ∧
      (runs (.jobClose 1 8 (bytes2 10)) cutter).dev.blk.cost.reports = [.zero 10] ∧
      two.dev.jobLaw = true ∧ (runs (.gone 1 8 [3]) two).dev.blk.cost.reports = [.line 4 11] ∧
      ((runs (.gone 1 8 [3]) two).dev.blk.line.queue.map (·.frame.line)) = [none, some 4] ∧
      ((runs (.gone 1 8 [3]) two).dev.blk.line.queue.map (·.frame.kind)) = [.join, .costReport] := by decide +kernel

/-- `CostLinesReport`: the own COST_REPORT taken and void, of a line and of a zero report, one discarded, and a replica that
becomes CURRENT. -/
theorem test_hyps_own_reports :
    let p (n : Nat) := reportPayload n Tally.zero
    let line : CostLine := { aLine .sent with tally := Tally.zero }
    let own (x : CostLine) (l : List Report) : State := { reporting x l with dev.blk.line.txDone := some .costReport }
    let held : State := { reporting line [.line 4 10] with
      dev.blk.host.rejoinPending := true
      dev.blk.line.queue := [anEntry .cost { mkFrame .costReport (p 10) with line := some 4 } 1 false] }
    let becomes : State := { reporting { line with state := .accruing, job := 12 } [] with
      dev.shop.state := .stale, dev.shop.rep.ledger.entries := [], dev.blk.saw.grant := 0
      dev.blk.line.txDone := some .rebase }
    (runs (.costReport 3 8 (p 11)) (own { line with job := 11 } [.line 4 11])).dev.blk.cost.lines = [] ∧
      (runs (.costReport 3 8 (p 10)) (own line [.line 4 10])).dev.blk.host.notices = [.reportRefused 4 10 8] ∧
      ((runs (.costReport 3 8 (p 10)) (own line [.line 4 10])).dev.blk.cost.lines.map (·.2.state)) = [.refused] ∧
      (runs (.costReport 3 8 (p 11)) (own line [.zero 11])).dev.blk.cost.reports = [] ∧
      held.dev.blk.saw.planLaw = true ∧
      ((runs .rejoinTakesEffect held).dev.blk.cost.lines.map (·.2.state)) = [.due] ∧
      ((runs (.rebase 3 8 []) becomes).dev.blk.cost.lines.map (·.2.state)) = [.sent] := by decide +kernel

/-- `ChargesOfTheClockAndOfStone`: the charge of the stone on the lines of two jobs, and on a line that is SENT. -/
theorem test_hyps_stone_charge :
    let l : List Settlement := [{ job := 10, area := 400, index := 1 }, { job := 11, area := 300, index := 2 }]
    let c : CostUnit := { (reporting { aLine .accruing with openCount := 1 } []).dev.blk.cost with
      lines := [(0, { aLine .accruing with openCount := 1 }), (1, { aLine .due with job := 11 }), (2, aLine .sent)]
      first := some (10, 0) }
    ((c.stoneCharge someFigures l).lines.map (fun x => (x.2.tally.stone, x.2.tally.waste, x.2.openCount))) =
      [(400, 115, 0), (300, 85, 0), (0, 0, 0)] := by decide

/-- `ReadRequestsReplyFromTheState`: a correction that its two bytes do not hold draws a free value, and one that they hold
does not; a cutter's reply has none. -/
theorem test_hyps_samples_free :
    let s (c : Nat) : State := { flowing 0 0 0 0 (some c) with dev.blk.meas.maHist := [1, 2, 3, 4], dev.blk.meas.mbHist := [0, 0, 0, 1] }
    (runs .readSamples (s 65535)).dev.blk.draws = 0 ∧ (runs .readSamples (s 65536)).dev.blk.draws = 1 ∧
      ((runs .readSamples (s 65536)).dev.blk.host.reply.map (·.status)) = some .ok ∧
      (runs .readSamples { cutter with dev.blk.plant.correction := some 65536 }).dev.blk.draws = 0 := by decide

end Sys2Proof.Tests
end

/-! Every step and the outbound queue (R13, R14, R20). Each move of the station is read once: as news, which leaves the
straps, the pins and the receiver too (`Tells`), or as a move that keeps both queues (`Keeps`). -/

namespace Sys2Proof.Machine

namespace Tells

/-! ## The table unit's moves, as news -/

theorem gap (frame : Word16) (d : Station) : Tells d.blk (d.gap frame).blk := (refl d.blk).becomeStale _ _ _

theorem abandonBuild (d : Station) : Tells d.blk d.abandonBuild.blk :=
  (((refl d.blk).setPhase .asking).setAskT none).ask _

theorem apply (own : Bool) (f : Taken) (d : Station) : Tells d.blk (d.apply own f).blk := (refl d.blk).tellAll _ _ _

theorem takeChange (own : Bool) (f : Taken) (d : Station) : Tells d.blk (d.takeChange own f).blk := by
  unfold Station.takeChange
  split
  · split
    · exact apply own f d
    · exact gap f.gen d
  · split
    · exact refl d.blk
    · split
      · exact refl d.blk
      · exact abandonBuild d
  all_goals exact refl d.blk

theorem takeSnapHere (f : Taken) (d : Station) : Tells d.blk (d.takeSnapHere f).blk := by
  have h := (((refl d.blk).clearAsks).onAsking (fun a => { a with answered := true })).withdrawRebase
  unfold Station.takeSnapHere
  dsimp only
  split
  · exact h
  · exact h.restartAskT
  · exact h.buildBegun
  · exact h.buildBegun
  · exact h.restartAskT
  · exact ((h.setPhase .asking).setAskT none).ask _
  · exact h.becomeCurrent _ _

theorem takeSnap (f : Taken) (d : Station) : Tells d.blk (d.takeSnap f).blk := by
  have h := ((refl d.blk).snapHeardNow).rivalSnap f.sender f.target
  unfold Station.takeSnap
  dsimp only
  split
  · exact h
  · exact h.trans (takeSnapHere f { d with blk := (d.blk.snapHeardNow).rivalSnap f.sender f.target })

theorem rebaseOwn (d : Station) : Tells d.blk d.rebaseOwn.blk := by
  unfold Station.rebaseOwn
  split
  · exact refl d.blk
  · exact (refl d.blk).becomeCurrent _ _

theorem rebaseOther (gen : Word16) (d : Station) : Tells d.blk (d.rebaseOther gen).blk := by
  unfold Station.rebaseOther
  split
  · exact (refl d.blk).clearAsks.trans (gap gen { d with blk := d.blk.clearAsks })
  · dsimp only
    split
    · exact (((((refl d.blk).setPhase .asking).clearAsks).withdrawRebase).setAskT none).ask _
    · exact (((refl d.blk).clearAsks.withdrawRebase).setAskT none).ask _

/-- What the kind of a taken frame does is news to the blocks (R12). -/
theorem takeKind (own : Bool) (f : Taken) (d : Station) : Tells d.blk (d.takeKind own f).blk := by
  unfold Station.takeKind
  split
  · exact refl d.blk
  · split
    · exact refl d.blk
    · exact (refl d.blk).takeSyncAsk _ _
  · split
    · exact refl d.blk
    · exact takeSnap f d
  · split
    · exact rebaseOwn d
    · exact rebaseOther f.gen d
  all_goals exact takeChange own f d

/-- The plant unit's news of a break (R96). -/
theorem breakReport (at_ : ReplicaState) (sh : Shop) (b : Blocks) : Tells b (b.breakReport at_ sh) := by
  cases at_ with
  | empty => exact refl b
  | current | stale | building => exact (refl b).ledgerReport sh

/-! ## REJOIN (R64) -/

theorem clearRejoin {a b : Blocks} (h : Tells a b) :
    Tells a { b with host := { b.host with rejoinPending := false } } :=
  h.trans ⟨rfl, rfl, rfl, rfl, rfl, rfl, rfl, rfl, rfl, rfl, rfl, by simp, Line.SameWire.refl _,
    Meas.SameReadings.refl _, id, id⟩

theorem rejoinNow (d : Station) : Tells d.blk d.rejoinNow.blk := by
  have h1 := (refl d.blk).onPres (f := fun p =>
    { p with mem := .outside .listen, listenT := some (d.blk.now + 1500), askT := none, helloT := none }) rfl rfl rfl
  have h2 := ((h1.discardAll Shop.emptied).setStream none).clearAsks
  have h3 := (h2.onAsking (fun a => { a with answered := false })).setSealT none
  exact h3.clearRejoin.grantReport _ _

theorem settleRejoin (d : Station) : Tells d.blk d.settleRejoin.blk := by
  unfold Station.settleRejoin
  split
  · exact rejoinNow d
  · exact refl d.blk

/-! ## The membership timers (02, 03) -/

theorem unanswered {a b : Blocks} (h : Tells a b) (sh : Shop) : Tells a (b.unanswered sh) := by
  have h1 := h.onAsking (fun x => { x with count := min 3 (x.count + 1) })
  unfold Blocks.unanswered
  dsimp only
  split
  · exact h1.ask sh
  · have h2 := (h1.post (.syncFailed sh.gen sh.state)).onAsking (fun x => { x with failed := true })
    repeat' split
    · exact h1
    · exact h1.offer _ _
    · exact h1.ask sh
    · exact h2
    · exact h2.offer _ _
    · exact h2.ask sh

theorem listenEnds {a b : Blocks} (h : Tells a b) (sh : Shop) : Tells a (b.listenEnds sh) := by
  have h1 := h.onPres (f := fun p => { p with listenT := none }) rfl rfl rfl
  unfold Blocks.listenEnds
  dsimp only
  repeat' split
  · exact h1.offerJoin
  · exact h1.setMem _
  · exact (h1.setMem _).ask sh
  · exact (h1.setMem _).ask sh
  · exact h1

theorem helloExpires {a b : Blocks} (h : Tells a b) (t : Nat) : Tells a (b.helloExpires t) := by
  have h1 := h.onPres (f := fun p => { p with helloT := some (t + 1000) }) rfl rfl rfl
  unfold Blocks.helloExpires
  dsimp only
  split
  · exact h1.offer _ _
  · exact h1

end Tells

/-- The station when the kind of a taken frame acts: the own sending that it completes, the receiver's wait for idle, and
a peer's head are behind it (R12, R19, R57). -/
def Station.headTaken (f : Taken) (d : Station) : Station :=
  let d1 := d.completeFor f
  let b1 := d1.blk.onLine Line.frameTaken
  { d1 with blk := if d1.blk.isOwn f then b1 else b1.peerHead f d1.shop }

/-- A frame is taken in four moves: its head, its kind, the news of a duplicate, a REJOIN that waited (R12, R22, R23). -/
theorem Station.takeFrame_eq (f : Taken) (d : Station) :
    d.takeFrame f =
      (let own := (d.completeFor f).blk.isOwn f
       let d2 := (d.headTaken f).takeKind own f
       { d2 with
         blk := Blocks.tellDuplicate own f ((d.completeFor f).blk.onLine Line.frameTaken) d2.blk }).settleRejoin := rfl

namespace Keeps

variable {a b : Blocks}

/-! ## Moves that touch neither queue -/

/-- A move that leaves the line and the host port as they are. -/
theorem same {c : Blocks} (h : Keeps a b) (hl : c.line = b.line) (hh : c.host = b.host) : Keeps a c :=
  h.trans ⟨by rw [hl]; exact id, by rw [hh]; exact id, by rw [hh]; exact id⟩

theorem atDeadline (h : Keeps a b) (t : Nat) : Keeps a (b.atDeadline t) := h.same rfl rfl

theorem onMeas (h : Keeps a b) (f : Meas → Meas) : Keeps a (b.onMeas f) := h.same rfl rfl

/-- A change of the receiver or of the transmitter's flags. -/
theorem onWire (h : Keeps a b) {f : Line → Line} (h1 : (f b.line).queue = b.line.queue)
    (h2 : (f b.line).waitList = b.line.waitList) (h3 : (f b.line).backlog = b.line.backlog)
    (h4 : (f b.line).failures = b.line.failures) : Keeps a (b.onLine f) :=
  h.onLine (fun hs => hs.ofQueue h1 h2 h3 h4)

/-- An expiry does what the timer's act does, the clock at its deadline (log 4). -/
theorem onExpiry {timer : Blocks → Option Nat} {act : Nat → Blocks → Blocks}
    (hact : ∀ t x, Keeps x (act t x)) (b : Blocks) : Keeps b (b.onExpiry timer act) := by
  unfold Blocks.onExpiry
  split
  · exact refl b
  · exact ((refl b).atDeadline _).trans (hact _ _)

/-! ## Frames and characters (R7 to R12) -/

theorem discard (h : Keeps a b) (r : Discard) : Keeps a (b.onLine (Line.discard r)) := h.onWire rfl rfl rfl rfl

theorem startBit (h : Keeps a b) (sender : Nat) : Keeps a (b.startBit sender) := h.onWire rfl rfl rfl rfl

theorem peerHead (h : Keeps a b) (f : Taken) (sh : Shop) : Keeps a (b.peerHead f sh) := by
  have h1 : Keeps a (if b.line.emitting.isNone then b.onLine (fun l => { l with yielding := false }) else b) := by
    split
    · exact h.onWire rfl rfl rfl rfl
    · exact h
  have h2 := h1.told ((Tells.refl _).hear f.sender)
  unfold Blocks.peerHead
  dsimp only
  split
  · exact h2.told ((Tells.refl _).duplicate sh)
  · exact h2

theorem completeFor (f : Taken) (d : Station) : Keeps d.blk (d.completeFor f).blk := by
  unfold Station.completeFor
  split
  · split
    · exact completes d.shop d.blk
    · exact refl d.blk
  · exact refl d.blk

theorem frameTaken (h : Keeps a b) : Keeps a (b.onLine Line.frameTaken) := h.onWire rfl rfl rfl rfl

/-- A REJOIN that waits takes effect after a move that keeps both queues. -/
theorem settleRejoin {d : Station} (h : Keeps a d.blk) : Keeps a d.settleRejoin.blk := h.told (Tells.settleRejoin d)

theorem headTaken (f : Taken) (d : Station) : Keeps d.blk (d.headTaken f).blk := by
  have h1 := (completeFor f d).frameTaken
  unfold Station.headTaken
  dsimp only
  split
  · exact h1
  · exact h1.peerHead f _

/-- A taken frame keeps both queues (R12). -/
theorem takeFrame (f : Taken) (d : Station) : Keeps d.blk (d.takeFrame f).blk := by
  rw [Station.takeFrame_eq]
  have h := (headTaken f d).told (Tells.takeKind ((d.completeFor f).blk.isOwn f) f (d.headTaken f))
  exact settleRejoin (h.told ((Tells.refl _).tellDuplicate _ f _))

theorem frameArrives (f : Taken) (d : Station) : Keeps d.blk (d.frameArrives f).blk := by
  have h0 := (refl d.blk).startBit f.sender
  unfold Station.frameArrives
  split
  · split
    · split
      · exact (h0.onWire rfl rfl rfl rfl).told ((Tells.refl _).seenHead _ _)
      · exact takeFrame f d
    · exact h0.discard _
  · exact refl d.blk

theorem character (data : Byte) (mark stop : Bool) (b : Blocks) : Keeps b (b.character data mark stop).1 := by
  have hd : ∀ r, Keeps b (b.onLine (Line.discard r)) := (refl b).discard
  have hr : ∀ rx, Keeps b (b.onLine (fun l => { l with rx := rx })) := fun rx => (refl b).onWire rfl rfl rfl rfl
  unfold Blocks.character
  split
  · exact refl b
  · exact refl b
  · split
    · split
      · exact hr _
      all_goals exact hd _
    · exact hr _
  · split
    · exact (hd .framing).onWire (f := fun x => { x with badStop := true }) rfl rfl rfl rfl
    · split
      · exact hd _
      · dsimp only
        split
        · exact hr _
        · exact hd _
        · exact hd _
        · exact (hr _).told ((Tells.refl _).seenHead _ _)
        · exact hr _

theorem receive (data : Byte) (mark stop : Bool) (d : Station) : Keeps d.blk (d.receive data mark stop).blk := by
  unfold Station.receive
  split
  · have h0 : Keeps d.blk (d.blk.onLine (fun l =>
        { l with idle := false, badStop := false, yielding := l.yielding && l.readsOwn })) :=
      (refl d.blk).onWire rfl rfl rfl rfl
    have h1 := h0.trans (character data mark stop _)
    dsimp only
    split
    · next b1 he => rw [he] at h1; exact h1
    · next b1 f he => rw [he] at h1; exact h1.trans (takeFrame f { d with blk := b1 })
  · exact refl d.blk

/-! ## The line's events (R2, R3, R9, R16 to R21) -/

theorem lineStep {f : Line → Line} (hf : ∀ l : Line, l.Sound → (f l).Sound) (d : Station) :
    Keeps d.blk (d.lineStep f).blk := by
  unfold Station.lineStep
  split
  · exact (refl d.blk).onLine (hf _)
  · exact refl d.blk

theorem broken (h : Keeps a b) : Keeps a (b.onLine Line.broken) := by
  unfold Line.broken
  refine h.onWire ?_ ?_ ?_ ?_ <;> (dsimp only; split <;> rfl)

theorem breakEvent (d : Station) : Keeps d.blk d.breakEvent.blk := by
  unfold Station.breakEvent
  dsimp only
  split
  · next sh _ =>
    have h0 := (refl d.blk).broken.trans (attemptEnds .broke sh _)
    have h1 := h0.told ((((Tells.refl _).setGrant sh 0).grantReport (effGrant d.shop d.blk) sh).streamAfter false true sh)
    exact h1.told (Tells.breakReport _ sh _)
  · have h0 := ((refl d.blk).broken.trans (attemptEnds .broke d.shop.brokenAside _)).told
      ((Tells.refl _).setGrant d.shop.brokenAside 0)
    exact h0.told ((((Tells.breakReport _ _ _).setPhase .asking).setAskT none).ask _)

/-! ## The membership timers -/

theorem askExpires (d : Station) : Keeps d.blk d.askExpires.blk := by
  unfold Station.askExpires
  split
  · exact refl d.blk
  · next t _ =>
    have h0 : Keeps d.blk ((d.blk.atDeadline t).setAskT none) := (refl d.blk).same rfl rfl
    dsimp only
    split
    · exact h0
    · exact h0.told (Tells.abandonBuild { d with blk := (d.blk.atDeadline t).setAskT none })
    all_goals
      dsimp only
      split
      · exact h0.told ((Tells.refl _).ask _)
      · exact h0.told ((Tells.refl _).unanswered _)

theorem silent (x : Nat) (sh : Shop) (b : Blocks) : Keeps b (b.silent x sh) := by
  unfold Blocks.silent
  split
  · exact refl b
  · split
    · exact ((refl b).atDeadline _).told ((Tells.refl _).offer _ _)
    · exact refl b

/-! ## Scans (R103, R104, R109) -/

theorem plantScan (h : Keeps a b) (ma mb : Nat) (sh : Shop) : Keeps a (b.plantScan ma mb sh) := by
  unfold Blocks.plantScan
  dsimp only
  have h1 := h.told ((Tells.refl b).onPlant (fun p =>
    { p with band := some (bandAfter b.plant.band (levelOf ma)), turbid := decide (600 < mb) }))
  split
  · refine Keeps.told ?_ ((Tells.refl _).withdrawBudget.republish sh)
    exact (h1.told ((Tells.refl _).onPlant _)).trans (haltBreak sh _)
  · exact h1.told ((Tells.refl _).republish sh)

theorem analog (v : Nat) (sh : Shop) (b : Blocks) : Keeps b (b.analog v sh) := by
  have h0 : Keeps b { b with meas := (b.meas.reading v).1 } := (refl b).same rfl rfl
  unfold Blocks.analog
  dsimp only
  split
  · split
    · exact h0
    · split
      · exact h0.told ((Tells.refl _).cutterScan _ _)
      · split
        · exact h0.plantScan _ _ sh
        · exact h0
  · exact h0

end Keeps

end Sys2Proof.Machine

namespace Sys2Proof.Machine

/-! ## Requests (10) -/

/-- What a request comes to (R184, R186): nothing outside REQUEST, INERT, or the request's own answer. -/
theorem Station.request_cases (act : Station → Answer) (d : Station) :
    d.request act = d ∨ d.request act = (d.refuses .inert).sent ∨ d.request act = (act d).sent := by
  unfold Station.request
  split
  · split
    · exact .inr (.inl rfl)
    · exact .inr (.inr rfl)
  · exact .inl rfl

theorem HostPort.sound_iff (h : HostPort) :
    h.sound = true ↔ h.notices.length ≤ 16 ∧ (h.attn = !h.notices.isEmpty) ∧ h.lost ≤ 255 ∧ h.planPart ≤ 6 := by
  simp [HostPort.sound, and_assoc]

namespace Keeps

variable {a b : Blocks}

theorem sent {x : Answer} (h : Keeps a x.dev.blk) : Keeps a x.sent.blk := h.trans ⟨id, id, id⟩

theorem request {act : Station → Answer} (hact : ∀ d, Keeps d.blk (act d).dev.blk) (d : Station) :
    Keeps d.blk (d.request act).blk := by
  rcases Station.request_cases act d with h | h | h <;> rw [h]
  · exact refl d.blk
  · exact sent (x := d.refuses .inert) (refl d.blk)
  · exact (hact d).sent

theorem cutterOnly {act : Station → Answer} (hact : ∀ d, Keeps d.blk (act d).dev.blk) (d : Station) :
    Keeps d.blk (d.cutterOnly act).dev.blk := by
  unfold Station.cutterOnly
  split
  · exact refl d.blk
  · exact hact d

/-- A frame request offers its frame (R186). -/
theorem queues {d : Station} (h : Keeps a d.blk) (f : Frame) (p : List Byte) : Keeps a (d.queues f p).dev.blk :=
  h.told ((Tells.refl _).offer .host f)

theorem withCursor {d : Station} (h : Keeps a d.blk) (n : Nat) : Keeps a (d.withCursor n).blk := h.trans ⟨id, id, id⟩

theorem registerSlab (m t l w rack rate : Nat) (d : Station) :
    Keeps d.blk (d.registerSlab m t l w rack rate).dev.blk := by
  have h : Keeps d.blk (d.onBlk (fun sh b => b.serialTaken sh)).blk :=
    ((Tells.refl d.blk).serialTaken d.shop).keeps
  unfold Station.registerSlab
  dsimp only
  repeat' split
  · exact refl d.blk
  · exact refl d.blk
  · exact refl d.blk
  · exact h.queues _ _

theorem onRecord (code : Nat) (needs : SlabState) (k : Kind) (d : Station) :
    Keeps d.blk (d.onRecord code needs k).dev.blk := by
  unfold Station.onRecord
  repeat' split
  all_goals first
    | exact refl d.blk
    | exact (refl d.blk).queues _ _

theorem openJob (n : Nat) (d : Station) : Keeps d.blk (d.openJob n).dev.blk := by
  unfold Station.openJob
  repeat' split
  all_goals first
    | exact refl d.blk
    | exact (refl d.blk).queues _ _

theorem closeJob (n : Nat) (d : Station) : Keeps d.blk (d.closeJob n).dev.blk := by
  unfold Station.closeJob
  repeat' split
  all_goals first
    | exact refl d.blk
    | exact (refl d.blk).queues _ _

theorem fetchNotice (d : Station) : Keeps d.blk d.fetchNotice.dev.blk := by
  unfold Station.fetchNotice
  split <;> exact refl d.blk

theorem readSlab (code : Nat) (d : Station) : Keeps d.blk (d.readSlab code).dev.blk := by
  unfold Station.readSlab
  repeat' split
  all_goals exact refl d.blk

theorem setCursor (slot : Nat) (d : Station) : Keeps d.blk (d.setCursor slot).dev.blk := by
  unfold Station.setCursor
  split
  · exact refl d.blk
  · exact (refl d.blk).withCursor slot

theorem walkSlabs (d : Station) : Keeps d.blk d.walkSlabs.dev.blk := by
  unfold Station.walkSlabs
  split <;> exact (refl d.blk).withCursor _

theorem readJob (n : Nat) (d : Station) : Keeps d.blk (d.readJob n).dev.blk := by
  unfold Station.readJob
  repeat' split
  all_goals exact refl d.blk

theorem readCostLine (slot : Nat) (d : Station) : Keeps d.blk (d.readCostLine slot).dev.blk := by
  unfold Station.readCostLine
  repeat' split
  all_goals exact refl d.blk

theorem readLedger (start : Nat) (d : Station) : Keeps d.blk (d.readLedger start).dev.blk := by
  unfold Station.readLedger
  split <;> exact refl d.blk

theorem readSamples (d : Station) : Keeps d.blk d.readSamples.dev.blk := (refl d.blk).same rfl rfl

/-- The parts of READ_PLAN go round from 0 to 6 (R200). -/
theorem readPlan (d : Station) : Keeps d.blk d.readPlan.dev.blk := by
  refine ⟨id, fun hs => ?_, id⟩
  rw [HostPort.sound_iff] at hs ⊢
  obtain ⟨hn, ha, hl, hp⟩ := hs
  refine ⟨hn, ha, hl, ?_⟩
  show (if d.blk.host.planPart < 6 then d.blk.host.planPart + 1 else 0) ≤ 6
  split <;> omega

theorem submitPiece (piece job material thickness length width rotate : Nat) (d : Station) :
    Keeps d.blk (d.submitPiece piece job material thickness length width rotate).dev.blk := by
  unfold Station.submitPiece
  repeat' split
  · exact refl d.blk
  · exact refl d.blk
  · exact refl d.blk
  · exact (((Tells.refl d.blk).onPlanner _).searchOrLook d.shop).keeps

theorem cancelPiece (n : Nat) (d : Station) : Keeps d.blk (d.cancelPiece n).dev.blk := by
  unfold Station.cancelPiece
  repeat' split
  · exact refl d.blk
  · exact refl d.blk
  · exact (refl d.blk).same rfl rfl

theorem sealPlan (d : Station) : Keeps d.blk d.sealPlan.dev.blk := by
  unfold Station.sealPlan
  repeat' split
  · exact refl d.blk
  · exact ((Tells.refl d.blk).sealNow).keeps
  · exact refl d.blk

theorem goRequest (d : Station) : Keeps d.blk d.goRequest.dev.blk := by
  unfold Station.goRequest
  split
  · exact ((Tells.refl d.blk).goLoad d.shop).keeps
  · exact ((Tells.refl d.blk).goIndex d.shop).keeps
  all_goals exact refl d.blk

theorem resumeRequest (d : Station) : Keeps d.blk d.resumeRequest.dev.blk := by
  unfold Station.resumeRequest
  split
  · exact ((Tells.refl d.blk).sawResume d.shop).keeps
  · exact refl d.blk

theorem abandonPlan (d : Station) : Keeps d.blk d.abandonPlan.dev.blk := by
  unfold Station.abandonPlan
  repeat' split
  all_goals first
    | exact refl d.blk
    | exact ((Tells.refl d.blk).abandonLost d.shop _).keeps
    | exact ((Tells.refl d.blk).abandonQueued d.shop _).keeps

theorem clearCostLine (n : Nat) (d : Station) : Keeps d.blk (d.clearCostLine n).dev.blk := by
  unfold Station.clearCostLine
  repeat' split
  · exact refl d.blk
  · exact refl d.blk
  · exact refl d.blk
  · exact (((Tells.refl d.blk).onCost _).search d.shop).keeps

theorem askStatus (d : Station) : Keeps d.blk d.askStatus.blk := by
  unfold Station.askStatus
  split
  · exact sent (x := d.says .ok d.statusBytes) (refl d.blk)
  · exact refl d.blk

theorem badRequest (code length : Byte) (d : Station) : Keeps d.blk (d.badRequest code length).blk := by
  unfold Station.badRequest
  repeat' split
  · exact sent (x := d.refuses .inert) (refl d.blk)
  · exact sent (x := d.refuses .badRequest) (refl d.blk)
  · exact refl d.blk

/-- The end of a reply takes the oldest notice, and ATTN and the lost count follow (R189, R191). -/
theorem replyOut (b : Blocks) : Keeps b (b.onHost HostPort.replyOut) := by
  have hr : b.host.removeNotice.rejoinPending = b.host.rejoinPending := rfl
  have hs : b.host.sound = true → b.host.removeNotice.sound = true := by
    simp only [HostPort.sound_iff, HostPort.removeNotice, List.length_tail]
    intro ⟨hn, _, hl, hp⟩
    exact ⟨by omega, trivial, by split <;> omega, hp⟩
  refine ⟨id, ?_, ?_⟩ <;> unfold Blocks.onHost HostPort.replyOut <;> dsimp only
  · repeat' split
    · exact hs
    all_goals exact id
  · repeat' split
    all_goals exact id

/-! ## The rows of the machine inputs and timers (06 to 09) -/

theorem dropExpires (h : Keeps a b) (sh : Shop) : Keeps a (b.dropExpires sh) := by
  have h1 := h.told (((Tells.refl b).onSaw (fun w => { w with dropT := none, waterWanted := false })).withdraw
    .saw isFlowAsk)
  unfold Blocks.dropExpires
  dsimp only
  split
  · exact h1.told ((Tells.refl _).offer _ _)
  · exact h1

theorem chargeNow (h : Keeps a b) : Keeps a b.chargeNow := by
  unfold Blocks.chargeNow
  repeat' split
  · exact h.same rfl rfl
  all_goals exact h

end Keeps

end Sys2Proof.Machine

namespace Sys2Proof.Machine

/-! ## Every command and both queues -/

/-- A command that changes the part by `f` keeps the queues where `f` does. -/
theorem Keeps.run {f : Station → Station} (hf : ∀ d, Keeps d.blk (f d).blk) {s t : State} (h : s.run f = .next t) :
    Keeps s.dev.blk t.dev.blk := by
  rw [State.run_eq] at h
  cases h
  exact hf s.dev

/-- A command of the blocks alone. -/
theorem Keeps.runBlk {f : Shop → Blocks → Blocks} (hf : ∀ sh b, Keeps b (f sh b)) {s t : State}
    (h : s.runBlk f = .next t) : Keeps s.dev.blk t.dev.blk :=
  Keeps.run (f := Station.onBlk f) (fun d => hf d.shop d.blk) h

/-- A command of the blocks after which a REJOIN that waited takes effect (R23). -/
theorem Keeps.runSettled {f : Shop → Blocks → Blocks} {s t : State}
    (h : s.run (fun d => (d.onBlk f).settleRejoin) = .next t) (hf : ∀ sh b, Keeps b (f sh b)) :
    Keeps s.dev.blk t.dev.blk :=
  Keeps.run (fun d => Keeps.settleRejoin (d := d.onBlk f) (hf d.shop d.blk)) h

/-- A step of the receiver's states and flags. -/
theorem Keeps.runLine {f : Line → Line} {s t : State} (h : s.run (Station.lineStep f) = .next t)
    (hf : ∀ l : Line, l.Sound → (f l).Sound) : Keeps s.dev.blk t.dev.blk :=
  Keeps.run (Keeps.lineStep hf) h

theorem Keeps.frameIn {k : Kind} {sender : BitVec 4} {target : Nat} {gen : Word16} {p : List Byte} {s t : State}
    (h : s.frameIn k sender target gen p = .next t) : Keeps s.dev.blk t.dev.blk :=
  Keeps.run (Keeps.frameArrives _) h

theorem exec_breakEvent (s : State) :
    exec .breakEvent s =
      s.run (fun d => if d.blk.onAir && !d.blk.line.inBreak then d.breakEvent.settleRejoin else d) := rfl

theorem exec_rejoinTakesEffect (s : State) :
    exec .rejoinTakesEffect s =
      s.run (fun d => if d.blk.host.rejoinPending && d.blk.line.emitting.isNone then d.rejoinNow else d) := rfl

/-- Every command but FULL_RESET, which sets both queues, and REJOIN, which comes to be pending, keeps both queues. -/
theorem exec_keeps {c : Instr} {s t : State} (h : exec c s = .next t) (hreset : ∀ n p r, c ≠ .fullReset n p r)
    (hrejoin : c ≠ .rejoin) : Keeps s.dev.blk t.dev.blk := by
  have r := Keeps.refl
  cases c with
  | fullReset n p r => exact absurd rfl (hreset n p r)
  | rejoin => exact absurd rfl hrejoin
  | receiveCharacter data mark stop => exact Keeps.run (Keeps.receive data mark stop) h
  | lineIdle =>
    refine Keeps.runLine h (fun l hl => ?_)
    unfold Line.idleRead
    split
    · exact hl
    · exact hl.ofQueue rfl rfl rfl rfl
  | frameTimeLimit =>
    refine Keeps.runLine h (fun l hl => ?_)
    unfold Line.timeLimitRuns
    split
    · exact hl.ofQueue rfl rfl rfl rfl
    · exact hl
  | breakEvent =>
    rw [exec_breakEvent] at h
    refine Keeps.run (fun d => ?_) h
    split
    · exact (Keeps.breakEvent d).settleRejoin
    · exact r d.blk
  | breakEnd =>
    refine Keeps.runLine h (fun l hl => ?_)
    split
    · exact hl.ofQueue rfl rfl rfl rfl
    · exact hl
  | haltBreakEnd => exact Keeps.runLine h (fun l hl => hl.ofQueue rfl rfl rfl rfl)
  | transmitStart => exact Keeps.runBlk Keeps.transmit h
  | arbitrationLost =>
    exact Keeps.runSettled h (Keeps.attemptEnds .lost)
  | collision =>
    exact Keeps.runSettled h (Keeps.attemptEnds .collision)
  | sendCompleted =>
    exact Keeps.runSettled h (Keeps.completes)
  | yieldClear => exact Keeps.runLine h (fun l hl => hl.ofQueue rfl rfl rfl rfl)
  | lineRestExpiry =>
    refine Keeps.runBlk (fun _ b => ?_) h
    split
    · exact r b
    · exact ((r b).atDeadline _).onWire rfl rfl rfl rfl
  | budget | flowAsk | flowDrop | join | gone | rebase | slabAdd | claim | release | reclaim | consume | scrap
  | freeOrphanFrame | jobOpen | jobClose | costReport | hello | syncAsk | snap => exact Keeps.frameIn h
  | askTimerExpiry => exact Keeps.run Keeps.askExpires h
  | listenTimerExpiry =>
    exact Keeps.runBlk (fun sh b => Keeps.onExpiry (fun _ x => ((Tells.refl x).listenEnds sh).keeps) b) h
  | helloTimerExpiry =>
    exact Keeps.runBlk (fun _ b => Keeps.onExpiry (fun t x => ((Tells.refl x).helloExpires t).keeps) b) h
  | memberSilent station => exact Keeps.runBlk (fun sh b => Keeps.silent station.toNat sh b) h
  | rejoinTakesEffect =>
    rw [exec_rejoinTakesEffect] at h
    refine Keeps.run (fun d => ?_) h
    split
    · exact (Tells.rejoinNow d).keeps
    · exact r d.blk
  | selFall =>
    refine Keeps.runBlk (fun _ b => ?_) h
    unfold Blocks.selFalls
    split
    · exact r b
    · exact ⟨id, id, id⟩
  | selRise => exact Keeps.runBlk (f := fun _ b => b.selRises) (fun _ b => ⟨id, id, id⟩) h
  | noticeRemoved => exact Keeps.runBlk (fun _ b => Keeps.replyOut b) h
  | badRequest code length => exact Keeps.run (Keeps.badRequest code length) h
  | status => exact Keeps.run Keeps.askStatus h
  | fetchNotice => exact Keeps.run (Keeps.request Keeps.fetchNotice) h
  | registerSlab => exact Keeps.run (Keeps.request (Keeps.registerSlab _ _ _ _ _ _)) h
  | scrapSlab => exact Keeps.run (Keeps.request (Keeps.onRecord _ _ _)) h
  | freeOrphan => exact Keeps.run (Keeps.request (Keeps.onRecord _ _ _)) h
  | readSlab id => exact Keeps.run (Keeps.request (Keeps.readSlab _)) h
  | setCursor slot => exact Keeps.run (Keeps.request (Keeps.setCursor _)) h
  | walkSlabs => exact Keeps.run (Keeps.request Keeps.walkSlabs) h
  | submitPiece => exact Keeps.run (Keeps.request (Keeps.cutterOnly (Keeps.submitPiece _ _ _ _ _ _ _))) h
  | cancelPiece => exact Keeps.run (Keeps.request (Keeps.cutterOnly (Keeps.cancelPiece _))) h
  | readPlan => exact Keeps.run (Keeps.request (Keeps.cutterOnly Keeps.readPlan)) h
  | sealPlan => exact Keeps.run (Keeps.request (Keeps.cutterOnly Keeps.sealPlan)) h
  | go => exact Keeps.run (Keeps.request (Keeps.cutterOnly Keeps.goRequest)) h
  | resume => exact Keeps.run (Keeps.request (Keeps.cutterOnly Keeps.resumeRequest)) h
  | abandonPlan => exact Keeps.run (Keeps.request (Keeps.cutterOnly Keeps.abandonPlan)) h
  | openJob => exact Keeps.run (Keeps.request (Keeps.openJob _)) h
  | closeJob => exact Keeps.run (Keeps.request (Keeps.closeJob _)) h
  | readJob job => exact Keeps.run (Keeps.request (Keeps.readJob _)) h
  | readCostLine slot => exact Keeps.run (Keeps.request (Keeps.readCostLine _)) h
  | clearCostLine => exact Keeps.run (Keeps.request (Keeps.clearCostLine _)) h
  | readLedger start => exact Keeps.run (Keeps.request (Keeps.readLedger _)) h
  | readSamples => exact Keeps.run (Keeps.request Keeps.readSamples) h
  | sampleTrigger => exact Keeps.runBlk (fun _ b => ((r b).atDeadline _).onMeas _) h
  | analogReading value =>
    exact Keeps.runSettled h (Keeps.analog value.toNat)
  | jamTimerExpiry =>
    exact Keeps.runBlk (fun _ b => Keeps.onExpiry (fun _ x => ((r x).onMeas _).told (Tells.refl _).tellJam) b) h
  | dryTimerExpiry =>
    exact Keeps.runBlk (fun _ b => Keeps.onExpiry (fun _ x => ((r x).onMeas _).told (Tells.refl _).tellDry) b) h
  | flowPulse =>
    refine Keeps.runBlk (fun _ b => ?_) h
    split
    · exact (r b).onMeas _
    · exact r b
  | flowWindowEnd =>
    refine Keeps.runBlk (fun sh b => Keeps.onExpiry (fun t x => ?_) b) h
    dsimp only
    split
    · exact ((r x).onMeas _).told ((Tells.refl _).plantWindow _ sh)
    · exact (r x).onMeas _
  | spacingTimerExpiry =>
    exact Keeps.runBlk (fun sh b => Keeps.onExpiry
      (fun _ x => (((Tells.refl x).onPlant _).plantCompare sh).keeps) b) h
  | sealingTimerExpiry =>
    refine Keeps.runBlk (fun _ b => Keeps.onExpiry (fun _ x => ?_) b) h
    dsimp only
    split
    · split
      · exact ((Tells.refl x).setSealT none).sealNow.keeps
      · exact ((Tells.refl x).setSealT none).keeps
    · exact ((Tells.refl x).setSealT none).keeps
  | encCount =>
    refine Keeps.runBlk (fun sh b => ?_) h
    split
    · have h1 := (Tells.refl b).onSaw (fun w => { w with enc := min 65535 (w.enc + 1) })
      dsimp only
      split
      · exact (h1.completeCut sh).keeps
      · exact h1.keeps
    · exact r b
  | feedPulse =>
    refine Keeps.runBlk (fun _ b => ?_) h
    split
    · exact (Tells.refl b).pulseBegins.keeps
    · exact r b
  | stopInput asserted =>
    refine Keeps.runBlk (fun _ b => ?_) h
    have h1 : Keeps b { b with stop := asserted } := (r b).same rfl rfl
    dsimp only
    split
    · exact h1.told ((Tells.refl _).sawFault .stop)
    · exact h1
  | spinTimerExpiry =>
    refine Keeps.runBlk (fun sh b => Keeps.onExpiry (fun _ x => ?_) b) h
    have h1 := (Tells.refl x).onSaw (fun w => { w with spinT := none, atSpeed := w.blade })
    dsimp only
    split
    · exact (h1.enterCutting sh).keeps
    · exact h1.keeps
  | holdTimerExpiry =>
    refine Keeps.runBlk (fun _ b => Keeps.onExpiry (fun _ x => ?_) b) h
    have h1 := (Tells.refl x).onSaw (fun w => { w with holdT := none })
    dsimp only
    split
    · exact (h1.sawFault .water).keeps
    · exact h1.keeps
  | idleSpinExpiry =>
    exact Keeps.runBlk (fun _ b => Keeps.onExpiry (fun _ x => ((Tells.refl x).onSaw _).bladeOff.keeps) b) h
  | dropTimerExpiry =>
    exact Keeps.runBlk (fun sh b => Keeps.onExpiry (fun _ x => (r x).dropExpires sh) b) h
  | costClock =>
    exact Keeps.runBlk (fun _ b => Keeps.onExpiry (fun _ x => (((Tells.refl x).onCost _).keeps).chargeNow) b) h

/-- FULL_RESET empties the queue (R49, R23). -/
theorem Line.afterReset_sound : Line.afterReset.Sound :=
  ⟨by simp [Line.afterReset], by simp [Line.afterReset], by simp [Line.afterReset], Or.inl rfl, by simp [Line.afterReset]⟩

/-- REJOIN is answered at once, and where no frame is in emission it empties the queue (R64, R23). -/
theorem Station.askRejoin_line (d : Station) (h : d.blk.line.Sound) : d.askRejoin.dev.blk.line.Sound := by
  unfold Station.askRejoin
  split
  · exact h
  · exact (Tells.settleRejoin { d with blk := d.blk.onHost (fun x => { x with rejoinPending := true }) }).line h

theorem exec_keeps_line {c : Instr} {s t : State} (h : exec c s = .next t) (hs : s.dev.blk.line.Sound) :
    t.dev.blk.line.Sound := by
  by_cases hreset : ∃ n p r, c = .fullReset n p r
  · obtain ⟨n, p, r, rfl⟩ := hreset
    cases h
    exact Line.afterReset_sound
  · by_cases hrejoin : c = .rejoin
    · subst hrejoin
      cases h
      rcases Station.request_cases Station.askRejoin s.dev with e | e | e <;> dsimp only <;> rw [e]
      · exact hs
      · exact hs
      · exact s.dev.askRejoin_line hs
    · push Not at hreset
      exact (exec_keeps h hreset hrejoin).line hs

/-- Settles O5: the step is the front command, or a tick that moves the clock alone; each command keeps the queue sound. -/
theorem stepKeepsTheOutboundQueue : Obligations.StepKeepsTheOutboundQueue := by
  intro s t hs h
  rw [Line.sound_iff] at hs ⊢
  unfold step at h
  split at h
  · cases h
    exact hs
  · exact exec_keeps_line h hs

end Sys2Proof.Machine

/-! Characters and frames (R4 to R12): the folded sum, what a receiver makes of the characters so far, and the characters
that a sender emits read back. -/

namespace Sys2Proof.Machine

/-! ## The folded sum (R6) -/

theorem foldedSum_append (l : List Byte) (c : Byte) : foldedSum (l ++ [c]) = foldAdd (foldedSum l) c.toNat := by
  simp [foldedSum]

theorem foldAdd_eq (t c : Nat) : foldAdd t c = if 255 < t + c then t + c - 256 + 1 else t + c := by
  unfold foldAdd
  split <;> split <;> omega

theorem foldAdd_le {t c : Nat} (ht : t ≤ 255) (hc : c ≤ 255) : foldAdd t c ≤ 255 := by
  unfold foldAdd
  split <;> omega

theorem foldedSum_le (l : List Byte) : foldedSum l ≤ 255 := by
  induction l using List.reverseRecOn with
  | nil => exact Nat.zero_le 255
  | append_singleton l c ih =>
    rw [foldedSum_append]
    exact foldAdd_le ih (by have := c.isLt; omega)

theorem byte1_toNat {n : Nat} (h : n < 256) : (byte1 n).toNat = n := by
  simp [byte1, Nat.mod_eq_of_lt h]

/-- The CHECK character brings the folded sum to 255 (R6). -/
theorem foldedSum_check (front : List Byte) : foldedSum (front ++ [byte1 (255 - foldedSum front)]) = 255 := by
  have h := foldedSum_le front
  rw [foldedSum_append, byte1_toNat (by omega), foldAdd, if_pos (by omega)]
  omega

/-! ## The characters of a frame (R4) -/

/-- The characters of a frame ahead of its CHECK: HEAD, KIND, TARGET, LENGTH, GEN and the payload (R4). -/
def frameFront (station : Nat) (gen : Word16) (f : Frame) : List Byte :=
  headByte f.kind station :: byte1 f.kind.code :: byte1 f.target :: byte1 f.payload.length ::
    byte1 (gen.toNat / 256) :: byte1 gen.toNat :: f.payload

theorem frameChars_eq (station : Nat) (gen : Word16) (f : Frame) :
    frameChars station gen f = frameFront station gen f ++ [byte1 (255 - foldedSum (frameFront station gen f))] := rfl

@[simp] theorem frameFront_length (station : Nat) (gen : Word16) (f : Frame) :
    (frameFront station gen f).length = 6 + f.payload.length := by
  simp [frameFront]; omega

@[simp] theorem frameChars_length (station : Nat) (gen : Word16) (f : Frame) :
    (frameChars station gen f).length = 7 + f.payload.length := by
  simp [frameChars_eq]; omega

theorem foldedSum_frameChars (station : Nat) (gen : Word16) (f : Frame) : foldedSum (frameChars station gen f) = 255 :=
  foldedSum_check _

/-! ## What the characters so far come to (R8, R10, R11) -/

theorem hearFrame_head (own : Nat) (h : Byte) :
    hearFrame own [h] = if within 1 7 (h.toNat / 16) && within 1 15 (h.toNat % 16) then .more else .malformed := rfl

theorem hearFrame_kind (own : Nat) (h k : Byte) :
    hearFrame own [h, k] = if (Kind.ofCodes (h.toNat / 16) k.toNat).isSome then .more else .malformed := rfl

theorem hearFrame_target (own : Nat) (h k t : Byte) :
    hearFrame own [h, k, t] =
      if Kind.ofCodes (h.toNat / 16) k.toNat = some .snap then
        if within 1 15 t.toNat then (if t.toNat = own then .more else .skips) else .malformed
      else if t.toNat = 0 then .more
      else .malformed := rfl

theorem hearFrame_length (own : Nat) (h k t n : Byte) :
    hearFrame own [h, k, t, n] = if n.toNat ≤ 40 then .more else .malformed := rfl

/-- Past LENGTH the receiver counts to the CHECK and tests the folded sum (R6, R8, R10). -/
theorem hearFrame_body (own : Nat) (h k t n : Byte) {rest : List Byte} (hr : rest ≠ []) :
    hearFrame own (h :: k :: t :: n :: rest) =
      if 4 + rest.length < 7 + n.toNat then .more
      else if foldedSum (h :: k :: t :: n :: rest) = 255 then .done else .badCheck := by
  obtain ⟨c, cs, rfl⟩ := List.exists_cons_of_ne_nil hr
  have hl : (h :: k :: t :: n :: c :: cs).length = 4 + (c :: cs).length := by
    simp only [List.length_cons]; omega
  rw [← hl]
  rfl

/-- Settles O10: one addition is R6's sentence, so the sum stays within 255 and the CHECK fills it up. -/
theorem foldedSumAndCheck : Obligations.FoldedSumAndCheck := by
  refine ⟨rfl, fun l c => ?_, foldedSum_le, fun station gen f => ⟨⟨frameFront station gen f, ?_, rfl⟩, ?_⟩,
    fun station h k t n rest hl => ?_⟩
  · rw [foldedSum_append, foldAdd_eq]
  · exact frameFront_length station gen f
  · exact foldedSum_frameChars station gen f
  · have hr : rest ≠ [] := by
      rintro rfl
      simp at hl
      omega
    rw [hearFrame_body station h k t n hr, if_neg (by omega)]

/-! ## Reading a sender's characters back -/

theorem Kind.ofCodes_cls_code (k : Kind) : Kind.ofCodes k.cls k.code = some k := by cases k <;> rfl

theorem Kind.cls_range (k : Kind) : 1 ≤ k.cls ∧ k.cls ≤ 7 := by cases k <;> decide

theorem Kind.code_lt (k : Kind) : k.code < 256 := by cases k <;> decide

/-- The HEAD character holds the class and the sender (R4, R195). -/
theorem headByte_toNat (k : Kind) {station : Nat} (hs : station ≤ 15) :
    (headByte k station).toNat = k.cls * 16 + station :=
  byte1_toNat (by have := k.cls_range; omega)

theorem headByte_div (k : Kind) {station : Nat} (hs : station ≤ 15) : (headByte k station).toNat / 16 = k.cls := by
  rw [headByte_toNat k hs]; omega

theorem headByte_mod (k : Kind) {station : Nat} (hs : station ≤ 15) : (headByte k station).toNat % 16 = station := by
  rw [headByte_toNat k hs]; omega

/-- The first two characters of a frame name its kind (R195). -/
theorem ofCodes_headByte (k : Kind) {station : Nat} (hs : station ≤ 15) :
    Kind.ofCodes ((headByte k station).toNat / 16) (byte1 k.code).toNat = some k := by
  rw [headByte_div k hs, byte1_toNat k.code_lt, k.ofCodes_cls_code]

theorem within_iff (lo hi n : Nat) : within lo hi n = true ↔ lo ≤ n ∧ n ≤ hi := by simp [within]

theorem gen_of_chars (gen : Word16) : BitVec.ofNat 16 (be16 (byte1 (gen.toNat / 256)) (byte1 gen.toNat)) = gen := by
  apply BitVec.eq_of_toNat_eq
  have := gen.isLt
  simp only [be16, byte1, BitVec.toNat_ofNat]
  omega

/-- What a sound frame of a sender looks like: a station number, at most 40 characters of payload, and a TARGET of SNAP
alone (R4, R5). -/
structure Frame.Sendable (station : Nat) (f : Frame) : Prop where
  sender : within 1 15 station = true
  length : f.payload.length ≤ 40
  target : if f.kind = .snap then within 1 15 f.target = true else f.target = 0

namespace Frame.Sendable

variable {station own : Nat} {gen : Word16} {f : Frame}

theorem station_le (h : f.Sendable station) : station ≤ 15 := ((within_iff _ _ _).mp h.sender).2

theorem target_le (h : f.Sendable station) : f.target ≤ 15 := by
  have ht := h.target
  split at ht
  · exact ((within_iff _ _ _).mp ht).2
  · omega

theorem target_toNat (h : f.Sendable station) : (byte1 f.target).toNat = f.target :=
  byte1_toNat (by have := h.target_le; omega)

theorem length_toNat (h : f.Sendable station) : (byte1 f.payload.length).toNat = f.payload.length :=
  byte1_toNat (by have := h.length; omega)

theorem hears_head (h : f.Sendable station) : hearFrame own [headByte f.kind station] = .more := by
  have hc := f.kind.cls_range
  rw [hearFrame_head, headByte_div _ h.station_le, headByte_mod _ h.station_le, h.sender]
  simp [within, hc.1, hc.2]

theorem hears_kind (h : f.Sendable station) :
    hearFrame own [headByte f.kind station, byte1 f.kind.code] = .more := by
  rw [hearFrame_kind, ofCodes_headByte _ h.station_le]
  rfl

/-- A frame to every station, or to this one, is heard on at its TARGET. -/
theorem hears_target (h : f.Sendable station) (ho : f.kind ≠ .snap ∨ f.target = own) :
    hearFrame own [headByte f.kind station, byte1 f.kind.code, byte1 f.target] = .more := by
  have ht := h.target
  rw [hearFrame_target, ofCodes_headByte _ h.station_le, h.target_toNat]
  by_cases hk : f.kind = .snap
  · rw [if_pos hk] at ht
    rw [hk, if_pos rfl, if_pos ht, if_pos (ho.resolve_left (not_not.mpr hk))]
  · rw [if_neg hk] at ht
    simp [hk, ht]

/-- A SNAP to another station is skipped at its TARGET (R11). -/
theorem skips_target (h : f.Sendable station) (hk : f.kind = .snap) (ho : f.target ≠ own) :
    hearFrame own [headByte f.kind station, byte1 f.kind.code, byte1 f.target] = .skips := by
  have ht := h.target
  rw [if_pos hk] at ht
  rw [hearFrame_target, ofCodes_headByte _ h.station_le, h.target_toNat]
  simp [hk, ht, ho]

theorem hears_length (h : f.Sendable station) :
    hearFrame own [headByte f.kind station, byte1 f.kind.code, byte1 f.target, byte1 f.payload.length] = .more := by
  rw [hearFrame_length, h.length_toNat, if_pos h.length]

/-- The characters behind LENGTH: GEN, the payload and CHECK (R4). -/
theorem chars_eq (station : Nat) (gen : Word16) (f : Frame) : ∃ rest, rest.length = 3 + f.payload.length ∧
    frameChars station gen f =
      headByte f.kind station :: byte1 f.kind.code :: byte1 f.target :: byte1 f.payload.length :: rest :=
  ⟨byte1 (gen.toNat / 256) :: byte1 gen.toNat ::
      (f.payload ++ [byte1 (255 - foldedSum (frameFront station gen f))]), by simp; omega, rfl⟩

/-- Each character but the last leaves the receiver waiting for more (R8, R11). -/
theorem hears_more (h : f.Sendable station) (ho : f.kind ≠ .snap ∨ f.target = own) {n : Nat} (h0 : 0 < n)
    (hn : n < 7 + f.payload.length) : hearFrame own ((frameChars station gen f).take n) = .more := by
  obtain ⟨rest, hl, he⟩ := chars_eq station gen f
  rw [he]
  match n, h0 with
  | 1, _ => exact h.hears_head
  | 2, _ => exact h.hears_kind
  | 3, _ => exact h.hears_target ho
  | 4, _ => exact h.hears_length
  | m + 5, _ =>
    have hlen : (rest.take (m + 1)).length = m + 1 := by rw [List.length_take]; omega
    have hr : rest.take (m + 1) ≠ [] := by
      intro e
      rw [e] at hlen
      simp at hlen
    show hearFrame own (_ :: _ :: _ :: _ :: rest.take (m + 1)) = .more
    rw [hearFrame_body _ _ _ _ _ hr, hlen, h.length_toNat, if_pos (by omega)]

/-- The CHECK completes a sound frame (R6, R10). -/
theorem hears_done (h : f.Sendable station) : hearFrame own (frameChars station gen f) = .done := by
  have hs := foldedSum_frameChars station gen f
  obtain ⟨rest, hl, he⟩ := chars_eq station gen f
  have hr : rest ≠ [] := by
    rintro rfl
    simp only [List.length_nil] at hl
    omega
  rw [he] at hs ⊢
  rw [hearFrame_body _ _ _ _ _ hr, hl, h.length_toNat, if_neg (by omega), if_pos hs]

/-- The whole run of characters gives the frame's fields back (R4). -/
theorem parses (h : f.Sendable station) : parseFrame (frameChars station gen f) =
    some { kind := f.kind, sender := station, target := f.target, gen := gen, payload := f.payload } := by
  have he : frameChars station gen f = headByte f.kind station :: byte1 f.kind.code :: byte1 f.target ::
      byte1 f.payload.length :: byte1 (gen.toNat / 256) :: byte1 gen.toNat ::
        (f.payload ++ [byte1 (255 - foldedSum (frameFront station gen f))]) := rfl
  rw [he]
  simp only [parseFrame, ofCodes_headByte _ h.station_le, headByte_mod _ h.station_le, h.target_toNat, h.length_toNat,
    gen_of_chars, List.take_left]

end Frame.Sendable

/-- Settles O11: the characters of a sendable frame, one by one, against the receiver's checks. -/
theorem frameCharactersRoundTrip : Obligations.FrameCharactersRoundTrip := by
  intro station own gen f hs hl ht
  have h : f.Sendable station := ⟨hs, hl, ht⟩
  exact ⟨frameChars_length station gen f,
    fun ho => ⟨fun n h0 hn => h.hears_more ho h0 hn, h.hears_done, h.parses⟩,
    fun hk ho => h.skips_target hk ho⟩

end Sys2Proof.Machine

/-! The receiver, character by character (R1, R7, R8, R10, R11, R19). -/

namespace Sys2Proof.Machine

theorem Blocks.onAir_of {b : Blocks} (h : b.pres.mem ≠ .inert) : b.onAir = true := by
  simpa [Blocks.onAir] using h

/-- A character has begun: idle and a run of dominant bits have ended, and another station's start bit ends the yield
(R2, R19). -/
def Blocks.characterBegins (b : Blocks) : Blocks :=
  b.onLine (fun l => { l with idle := false, badStop := false, yielding := l.yielding && l.readsOwn })

theorem exec_receiveCharacter (data : Byte) (mark stop : Bool) (s : State) :
    exec (.receiveCharacter data mark stop) s = .next { s with dev := s.dev.receive data mark stop } := rfl

/-- A character that completes no frame moves the blocks alone. -/
theorem Station.receive_none {data : Byte} {mark stop : Bool} {d : Station} {b : Blocks}
    (hm : d.blk.pres.mem ≠ .inert) (h : d.blk.characterBegins.character data mark stop = (b, none)) :
    d.receive data mark stop = { d with blk := b } := by
  unfold Station.receive
  rw [if_pos (Blocks.onAir_of hm)]
  unfold Blocks.characterBegins at h
  dsimp only
  rw [h]

/-- A character that completes a frame has it taken (R10, R12). -/
theorem Station.receive_some {data : Byte} {mark stop : Bool} {d : Station} {b : Blocks} {f : Taken}
    (hm : d.blk.pres.mem ≠ .inert) (h : d.blk.characterBegins.character data mark stop = (b, some f)) :
    d.receive data mark stop = Station.takeFrame f { d with blk := b } := by
  unfold Station.receive
  rw [if_pos (Blocks.onAir_of hm)]
  unfold Blocks.characterBegins at h
  dsimp only
  rw [h]

/-! ## One character in each receiver state -/

section character

variable {b : Blocks} {data : Byte} {mark stop : Bool} {chars : List Byte}

theorem character_waiting (h : b.line.rx = .waitIdle ∨ b.line.rx = .skip) :
    b.character data mark stop = (b, none) := by
  rcases h with h | h <;> simp only [Blocks.character, h]

/-- Without the mark or with a dominant stop bit, READY goes back to waiting for idle, and no reason is kept (R7). -/
theorem character_badStart (h : b.line.rx = .ready) (hs : stop = false ∨ mark = false) :
    b.character data mark stop = (b.onLine (fun l => { l with rx := .waitIdle }), none) := by
  have : (stop && mark) = false := by rcases hs with rfl | rfl <;> simp
  simp only [Blocks.character, h, this, Bool.false_eq_true, if_false]

theorem character_head (h : b.line.rx = .ready)
    (hd : (within 1 7 (data.toNat / 16) && within 1 15 (data.toNat % 16)) = true) :
    b.character data true true = (b.onLine (fun l => { l with rx := .frame [data] }), none) := by
  simp only [Blocks.character, h, hearFrame_head, hd, Bool.and_self, if_true]

theorem character_badHead (h : b.line.rx = .ready)
    (hd : (within 1 7 (data.toNat / 16) && within 1 15 (data.toNat % 16)) = false) :
    b.character data true true = (b.onLine (Line.discard .malformed), none) := by
  simp only [Blocks.character, h, hearFrame_head, hd, Bool.and_self, if_true, Bool.false_eq_true, if_false]

/-- A dominant stop bit inside a frame is FRAMING, and its run may grow into a break (R3, R10). -/
theorem character_badStop (h : b.line.rx = .frame chars) :
    b.character data mark false = (b.onLine (fun x => { x.discard .framing with badStop := true }), none) := by
  simp only [Blocks.character, h, Bool.not_false, if_true]

theorem character_mark (h : b.line.rx = .frame chars) :
    b.character data true true = (b.onLine (Line.discard .malformed), none) := by
  simp only [Blocks.character, h, Bool.not_true, Bool.false_eq_true, if_false, if_true]

theorem character_more (h : b.line.rx = .frame chars)
    (hf : hearFrame b.pres.station (chars ++ [data]) = .more) :
    b.character data false true = (b.onLine (fun x => { x with rx := .frame (chars ++ [data]) }), none) := by
  simp only [Blocks.character, h, hf, Bool.not_true, Bool.false_eq_true, if_false]

theorem character_malformed (h : b.line.rx = .frame chars)
    (hf : hearFrame b.pres.station (chars ++ [data]) = .malformed) :
    b.character data false true = (b.onLine (Line.discard .malformed), none) := by
  simp only [Blocks.character, h, hf, Bool.not_true, Bool.false_eq_true, if_false]

theorem character_badCheck (h : b.line.rx = .frame chars)
    (hf : hearFrame b.pres.station (chars ++ [data]) = .badCheck) :
    b.character data false true = (b.onLine (Line.discard .check), none) := by
  simp only [Blocks.character, h, hf, Bool.not_true, Bool.false_eq_true, if_false]

/-- At its TARGET a SNAP to another station is skipped, and its head is reported (R11). -/
theorem character_skips {h c : Byte} (hr : b.line.rx = .frame [h, c])
    (hf : hearFrame b.pres.station [h, c, data] = .skips) :
    b.character data false true =
      ((b.onLine (fun x => { x with rx := .skip })).seenHead (h.toNat % 16) data.toNat, none) := by
  simp only [Blocks.character, hr, Bool.not_true, Bool.false_eq_true, if_false, List.cons_append, List.nil_append, hf]
  rfl

theorem character_done (h : b.line.rx = .frame chars)
    (hf : hearFrame b.pres.station (chars ++ [data]) = .done) :
    b.character data false true =
      (b.onLine (fun x => { x with rx := .waitIdle }), parseFrame (chars ++ [data])) := by
  simp only [Blocks.character, h, hf, Bool.not_true, Bool.false_eq_true, if_false]

end character

/-- Settles O14: each receiver state in turn, and in FRAME each position by the check that R8 or R10 makes there. -/
theorem receiverTakesACharacter : Obligations.ReceiverTakesACharacter := by
  intro data mark stop s hm
  have run {b : Blocks} (h : s.dev.blk.characterBegins.character data mark stop = (b, none)) :
      exec (.receiveCharacter data mark stop) s = .next { s with dev.blk := b } := by
    rw [exec_receiveCharacter, Station.receive_none hm h]
  refine ⟨fun h => run (character_waiting h), fun h hb => run (character_badStart h hb), ?_, ?_⟩
  · rintro h rfl rfl
    split
    · next hd => exact run (character_head h hd)
    · next hd => exact run (character_badHead h (by simpa using hd))
  · intro chars h
    have more (hf : hearFrame s.dev.blk.pres.station (chars ++ [data]) = .more) (hs : stop = true)
        (hk : mark = false) := run (by subst hs hk; exact character_more h hf)
    have malformed (hf : hearFrame s.dev.blk.pres.station (chars ++ [data]) = .malformed) (hs : stop = true)
        (hk : mark = false) := run (by subst hs hk; exact character_malformed h hf)
    refine ⟨?_, ?_, fun hs hk => ⟨?_, ?_, ?_, ?_, ?_, ?_⟩⟩
    · rintro rfl
      exact run (character_badStop h)
    · rintro rfl rfl
      exact run (character_mark h)
    · rintro c rfl
      split
      · next hd => exact more (by simp [hearFrame_kind, hd]) hs hk
      · next hd => exact malformed (by simpa [hearFrame_kind] using hd) hs hk
    · rintro c d rfl hne
      split
      · next hd => exact more (by simp [hearFrame_target, hne, hd]) hs hk
      · next hd =>
        refine malformed ?_ hs hk
        have hz : data.toNat ≠ 0 := fun e => hd (BitVec.eq_of_toNat_eq e)
        simp [hearFrame_target, hne, hz]
    · rintro c d rfl hsnap
      refine ⟨fun hw => malformed ?_ hs hk, fun hw ht => more ?_ hs hk, fun hw ht => ?_⟩
      · simp [hearFrame_target, hsnap, hw]
      · rw [List.cons_append, List.cons_append, List.nil_append, hearFrame_target, if_pos hsnap, if_pos hw, if_pos ht]
      · subst hs hk
        have hf : hearFrame s.dev.blk.characterBegins.pres.station [c, d, data] = .skips := by
          rw [hearFrame_target, if_pos hsnap, if_pos hw]
          exact if_neg ht
        refine ⟨_, run (character_skips h hf), ?_, rfl⟩
        exact ((Tells.refl (s.dev.blk.characterBegins.onLine (fun x => { x with rx := .skip }))).seenHead
          (c.toNat % 16) data.toNat).wire.rx
    · rintro c d t rfl
      split
      · next hd => exact more (by simp [hearFrame_length, hd]) hs hk
      · next hd => exact malformed (by simp [hearFrame_length, hd]) hs hk
    · rintro c d t n rest rfl hlt
      refine more ?_ hs hk
      simp only [List.length_cons] at hlt
      rw [List.cons_append, List.cons_append, List.cons_append, List.cons_append,
        hearFrame_body _ _ _ _ _ (by simp), if_pos (by simp only [List.length_append, List.length_singleton]; omega)]
    · rintro c d t n rest rfl hle hsum
      subst hs hk
      refine run (character_badCheck h ?_)
      simp only [List.length_cons] at hle
      simp only [List.cons_append] at hsum ⊢
      rw [hearFrame_body _ _ _ _ _ (by simp), if_neg (by simp only [List.length_append, List.length_singleton]; omega),
        if_neg hsum]

end Sys2Proof.Machine

/-! The start, the failure and the completion of a sending (R14, R16 to R20). -/

namespace Sys2Proof.Machine

/-! ## The start (R16) -/

theorem Membership.sends_iff (m : Membership) : m.sends = true ↔ m ≠ .inert ∧ m ≠ .mute ∧ m ≠ .outside .listen := by
  cases m with
  | outside ph => cases ph <;> simp [Membership.sends]
  | inert | joining | member | mute => simp [Membership.sends]

theorem Line.emitting_none_iff (l : Line) : l.emitting = none ↔ ∀ e ∈ l.queue, e.inEmission = false := by
  simp [Line.emitting]

theorem Blocks.mayTransmit_iff (b : Blocks) :
    b.mayTransmit = true ↔ b.line.idle = true ∧ b.line.yielding = false ∧ b.line.restT = none ∧
      b.pres.mem ≠ .inert ∧ b.pres.mem ≠ .mute ∧ b.pres.mem ≠ .outside .listen ∧
        ∀ e ∈ b.line.queue, e.inEmission = false := by
  simp only [Blocks.mayTransmit, Bool.and_eq_true, Bool.not_eq_true', Option.isNone_iff_eq_none,
    Membership.sends_iff, Line.emitting_none_iff, and_assoc]

theorem Shop.current_iff (sh : Shop) : sh.current = true ↔ sh.state = .current := by simp [Shop.current]

/-- A frame may not start where it is a change frame and the replica is not CURRENT (R16). -/
theorem OutEntry.mayStart_false_iff (sh : Shop) (e : OutEntry) :
    e.mayStart sh = false ↔ e.frame.kind.isChange = true ∧ sh.state ≠ .current := by
  simp [OutEntry.mayStart, Shop.current]

/-- The entries ahead of the first that may start stand as they were. -/
theorem emitFirst_append (sh : Shop) {before : List OutEntry} {e : OutEntry} (after : List OutEntry)
    (hb : ∀ x ∈ before, x.mayStart sh = false) (he : e.mayStart sh = true) :
    emitFirst sh (before ++ e :: after) = before ++ { e with inEmission := true } :: after := by
  induction before with
  | nil => simp [emitFirst, he]
  | cons x rest ih =>
    have hx := hb x (by simp)
    simp only [List.cons_append, emitFirst, hx, Bool.false_eq_true, if_false]
    rw [ih (fun y hy => hb y (by simp [hy]))]

theorem exec_transmitStart (s : State) :
    exec .transmitStart s = .next { s with dev.blk := s.dev.blk.transmit s.dev.shop } := rfl

theorem transmit_blocked {b : Blocks} (sh : Shop) (h : b.mayTransmit = false) : b.transmit sh = b := by
  simp [Blocks.transmit, h]

theorem transmit_none {b : Blocks} {sh : Shop} (h : ∀ x ∈ b.line.queue, x.mayStart sh = false) :
    b.transmit sh = b := by
  have hf : b.line.queue.find? (OutEntry.mayStart sh) = none := List.find?_eq_none.mpr (by simpa using h)
  unfold Blocks.transmit
  rw [hf]
  exact ite_self b

theorem transmit_first {b : Blocks} {sh : Shop} {before after : List OutEntry} {e : OutEntry}
    (h : b.mayTransmit = true) (hq : b.line.queue = before ++ e :: after)
    (hb : ∀ x ∈ before, x.mayStart sh = false) (he : e.mayStart sh = true) :
    b.transmit sh = b.onLine (fun l =>
      { l with
        queue := before ++ { e with inEmission := true } :: after, idle := false, txDone := none
        tx := frameChars b.pres.station (sentGen sh e.frame.kind) e.frame }) := by
  have hf : b.line.queue.find? (OutEntry.mayStart sh) = some e := by
    rw [hq, List.find?_append, List.find?_eq_none.mpr (by simpa using hb), Option.none_or, List.find?_cons, he]
  unfold Blocks.transmit Blocks.onLine
  rw [if_pos h, hf]
  dsimp only
  rw [hq, emitFirst_append sh after hb he]

/-- Settles O16: the conditions of a start are R16's, and the first entry that may start is the one it takes. -/
theorem transmitterStartsTheFirstFrame : Obligations.TransmitterStartsTheFirstFrame := by
  intro s
  refine ⟨fun free before e after hq hb he => ?_, fun _ h => ?_, fun h => ?_⟩
  · have hstart : e.mayStart s.dev.shop = true := by
      rw [← Bool.not_eq_false]
      exact fun hf => he ((OutEntry.mayStart_false_iff _ _).mp hf)
    rw [exec_transmitStart, transmit_first ((Blocks.mayTransmit_iff _).mpr free) hq
      (fun x hx => (OutEntry.mayStart_false_iff _ _).mpr (hb x hx)) hstart]
    rfl
  · rw [exec_transmitStart, transmit_none (fun x hx => (OutEntry.mayStart_false_iff _ _).mpr (h x hx))]
  · have hb : s.dev.blk.mayTransmit = false := by
      rw [← Bool.not_eq_true]
      exact fun hm => h ((Blocks.mayTransmit_iff _).mp hm)
    rw [exec_transmitStart, transmit_blocked _ hb]

end Sys2Proof.Machine

namespace Sys2Proof.Machine

/-! ## The completion (R14, R19, R58) -/

/-- With nothing waiting, a freed slot stays free (R14). -/
theorem Line.settle_of_empty {l : Line} (hw : l.waitList = []) (hb : l.backlog = []) : l.settle = l := by
  simp [Line.settle, hw, hb, Line.refill]

/-- With one frame waiting, a freed slot goes to it (R14). -/
theorem Line.settle_of_one {l : Line} {w : Waiter} (hw : l.waitList = [w]) (hb : l.backlog = [])
    (hq : l.queue.length < 12) : l.settle = { l with waitList := [] }.enqueue w.producer w.frame := by
  simp [Line.settle, hw, hb, Line.refill, hq, bestWaiter, Line.promote]

/-- A running HELLO timer restarts at the completion of an own frame (R58). -/
theorem Blocks.ownCompleted_eq (b : Blocks) :
    b.ownCompleted =
      { b with pres.helloT := if b.pres.helloT.isSome then some (b.now + 1000) else none } := by
  unfold Blocks.ownCompleted
  split
  · rfl
  · next h =>
    have hn : b.pres.helloT = none := by simpa using h
    rw [← hn]

/-- What every completed kind but SYNC_ASK and SNAP does (R19). -/
theorem Blocks.completes_eq {b : Blocks} {e : OutEntry} (sh : Shop) (he : b.line.emitting = some e)
    (h1 : e.frame.kind ≠ .syncAsk) (h2 : e.frame.kind ≠ .snap) :
    b.completes sh =
      (b.onLine (fun l =>
        { l.dropEmitted with failures := 0, yielding := true, txDone := some e.frame.kind })).ownCompleted := by
  have hd : handedOn b.pres.station e.frame = true := by simp [handedOn, h2]
  unfold Blocks.completes
  rw [he]
  dsimp only
  rw [hd]
  cases hk : e.frame.kind with
  | syncAsk => exact absurd hk h1
  | snap => exact absurd hk h2
  | budget | flowAsk | flowDrop | join | gone | rebase | slabAdd | claim | release | reclaim | consume | scrap
  | freeOrphan | jobOpen | jobClose | costReport | hello => rfl

/-- A completed frame still to be taken keeps a REJOIN waiting (log 10). -/
theorem Station.settleRejoin_of_txDone {d : Station} {k : Kind} (h : d.blk.line.txDone = some k) :
    d.settleRejoin = d := by
  simp [Station.settleRejoin, h]

theorem exec_sendCompleted (s : State) :
    exec .sendCompleted s =
      .next { s with dev := (s.dev.onBlk (fun sh b => b.completes sh)).settleRejoin } := rfl

/-- The part after such a completion, with the queue, the wait list and the entry order that it leaves. -/
theorem exec_sendCompleted_eq {s : State} {e : OutEntry} (he : s.dev.blk.line.emitting = some e)
    (h1 : e.frame.kind ≠ .syncAsk) (h2 : e.frame.kind ≠ .snap) :
    exec .sendCompleted s = .next
      { s with
        dev.blk.line :=
          { s.dev.blk.line.dropEmitted with failures := 0, yielding := true, txDone := some e.frame.kind }
        dev.blk.pres.helloT := if s.dev.blk.pres.helloT.isSome then some (s.dev.blk.now + 1000) else none } := by
  have hb : s.dev.onBlk (fun sh b => b.completes sh) =
      { s.dev with
        blk.line :=
          { s.dev.blk.line.dropEmitted with failures := 0, yielding := true, txDone := some e.frame.kind }
        blk.pres.helloT := if s.dev.blk.pres.helloT.isSome then some (s.dev.blk.now + 1000) else none } := by
    show { s.dev with blk := s.dev.blk.completes s.dev.shop } = _
    rw [Blocks.completes_eq s.dev.shop he h1 h2, Blocks.ownCompleted_eq]
    rfl
  rw [exec_sendCompleted, hb, Station.settleRejoin_of_txDone rfl]

/-- Settles O18: the entry's slot is freed, and goes to the one frame that waits, if one does. -/
theorem completedFrameLeavesTheQueue : Obligations.CompletedFrameLeavesTheQueue := by
  intro s e he h1 h2 hb
  refine ⟨fun hw => ?_, fun w hw hq => ?_⟩
  · have hd : s.dev.blk.line.dropEmitted =
        { s.dev.blk.line with queue := s.dev.blk.line.queue.filter (fun x => !x.inEmission), tx := [] } :=
      Line.settle_of_empty (l := { s.dev.blk.line with
        queue := s.dev.blk.line.queue.filter (fun x => !x.inEmission), tx := [] }) hw hb
    rw [exec_sendCompleted_eq he h1 h2, hd, ← hw]
  · have hd := Line.settle_of_one (l := { s.dev.blk.line with
      queue := s.dev.blk.line.queue.filter (fun x => !x.inEmission), tx := [] }) hw hb hq
    rw [exec_sendCompleted_eq he h1 h2, Line.dropEmitted, hd]
    rfl

end Sys2Proof.Machine

/-! The two levels of frame commands (log 1): a frame's characters, one command each, against the whole frame's command. -/

namespace Sys2Proof.Machine

/-! ## Which entries are in emission -/

/-- How many entries are IN_EMISSION. -/
def Line.emissions (l : Line) : Nat := (l.queue.filter (·.inEmission)).length

theorem Line.emissions_eq_zero_iff (l : Line) : l.emissions = 0 ↔ l.emitting = none := by
  rw [Line.emitting_none_iff, Line.emissions, List.length_eq_zero_iff, List.filter_eq_nil_iff]
  simp

theorem Line.emitting_isSome_eq (l : Line) : l.emitting.isSome = decide (l.emissions ≠ 0) := by
  by_cases h : l.emitting = none
  · simp [h, (Line.emissions_eq_zero_iff l).mpr h]
  · have h0 : l.emissions ≠ 0 := fun e => h ((Line.emissions_eq_zero_iff l).mp e)
    simp [h0, Option.isSome_iff_ne_none.mpr h]

@[simp] theorem Line.emissions_enqueue (p : Producer) (f : Frame) (l : Line) :
    (l.enqueue p f).emissions = l.emissions := insertEntry_emitting _ l.queue rfl

@[simp] theorem Line.emissions_offer (p : Producer) (f : Frame) (l : Line) :
    (l.offer p f).emissions = l.emissions := by
  rcases Line.offer_cases p f l with ⟨_, e⟩ | ⟨_, _, e⟩ | ⟨_, _, _, e⟩ | ⟨_, _, _, e⟩ <;> rw [e]
  · exact Line.emissions_enqueue p f l
  all_goals rfl

@[simp] theorem Line.emissions_promote (p : Producer) :
    ∀ (n : Nat) (l : Line), (Line.promote p n l).emissions = l.emissions := by
  intro n
  induction n with
  | zero => intro l; rfl
  | succ n ih =>
    intro l
    unfold Line.promote
    split
    · rfl
    · split
      · rfl
      · rw [ih, Line.emissions_offer]; rfl

@[simp] theorem Line.emissions_refill : ∀ (n : Nat) (l : Line), (Line.refill n l).emissions = l.emissions := by
  intro n
  induction n with
  | zero => intro l; rfl
  | succ n ih =>
    intro l
    unfold Line.refill
    split
    · split
      · rfl
      · rw [ih, Line.emissions_promote, Line.emissions_enqueue]; rfl
    · rfl

@[simp] theorem Line.emissions_settle (l : Line) : l.settle.emissions = l.emissions := Line.emissions_refill _ l

/-- Only WAITING entries are struck out, and none changes its state (R15). -/
@[simp] theorem Line.emissions_struck (p : Producer) (sel : Frame → Bool) (again : Bool) (l : Line) :
    (l.struck p sel again).emissions = l.emissions := by
  have hg : (fun x : OutEntry => x.inEmission) ∘
      (fun e : OutEntry => if e.isOf p sel then { e with again := e.again || again } else e) =
        (fun x => x.inEmission) := by
    funext e
    simp only [Function.comp_apply]
    split <;> rfl
  simp only [Line.emissions, Line.struck]
  rw [List.filter_map, List.length_map, hg, List.filter_filter]
  congr 1
  refine List.filter_congr (fun e _ => ?_)
  cases e.inEmission <;> simp

@[simp] theorem Line.emissions_withdraw (p : Producer) (sel : Frame → Bool) (again : Bool) (l : Line) :
    (l.withdraw p sel again).emissions = l.emissions := by
  rw [Line.withdraw_eq, Line.emissions_promote, Line.emissions_settle, Line.emissions_struck]

theorem Blocks.hear_emissions (s : Nat) (b : Blocks) : (b.hear s).line.emissions = b.line.emissions :=
  Line.emissions_withdraw _ _ _ _

theorem Blocks.rivalSnap_emissions (sender asker : Nat) (b : Blocks) :
    (b.rivalSnap sender asker).line.emissions = b.line.emissions := by
  unfold Blocks.rivalSnap
  split
  · rfl
  · split
    · unfold Blocks.dropStream
      split
      · rfl
      · exact Line.emissions_withdraw _ _ _ _
    · rfl

theorem Blocks.seenHead_emissions (sender target : Nat) (b : Blocks) :
    (b.seenHead sender target).line.emissions = b.line.emissions := by
  unfold Blocks.seenHead
  split
  · exact b.hear_emissions sender
  · rw [Blocks.rivalSnap_emissions]
    exact b.hear_emissions sender

/-! ## The receiver's own fields move by themselves -/

/-- The receiver's fields are set, whatever they were. -/
def Line.hearing (rx : Rx) (idle badStop : Bool) (l : Line) : Line :=
  { l with rx := rx, idle := idle, badStop := badStop }

section hearing

variable (rx : Rx) (i k : Bool)

theorem Line.offer_hearing (p : Producer) (f : Frame) (l : Line) :
    (l.hearing rx i k).offer p f = (l.offer p f).hearing rx i k := by
  have hq : (l.hearing rx i k).queue = l.queue := rfl
  have hw : (l.hearing rx i k).waitList = l.waitList := rfl
  unfold Line.offer
  rw [hq, hw]
  repeat' split
  all_goals rfl

theorem Line.promote_hearing (p : Producer) :
    ∀ (n : Nat) (l : Line), Line.promote p n (l.hearing rx i k) = (Line.promote p n l).hearing rx i k := by
  intro n
  induction n with
  | zero => intro l; rfl
  | succ n ih =>
    intro l
    have hb : (l.hearing rx i k).backlog = l.backlog := rfl
    have hw : (l.hearing rx i k).waitList = l.waitList := rfl
    unfold Line.promote
    rw [hb, hw]
    split
    · rfl
    · split
      · rfl
      · rw [← ih, ← Line.offer_hearing]; rfl

theorem Line.refill_hearing :
    ∀ (n : Nat) (l : Line), Line.refill n (l.hearing rx i k) = (Line.refill n l).hearing rx i k := by
  intro n
  induction n with
  | zero => intro l; rfl
  | succ n ih =>
    intro l
    have hq : (l.hearing rx i k).queue = l.queue := rfl
    have hw : (l.hearing rx i k).waitList = l.waitList := rfl
    unfold Line.refill
    rw [hq, hw]
    split
    · split
      · rfl
      · rw [← ih, ← Line.promote_hearing]; rfl
    · rfl

theorem Line.dropEmitted_hearing (l : Line) : (l.hearing rx i k).dropEmitted = l.dropEmitted.hearing rx i k :=
  Line.refill_hearing rx i k _ { l with queue := l.queue.filter (fun e => !e.inEmission), tx := [] }

theorem Blocks.offer_hearing (p : Producer) (f : Frame) (b : Blocks) :
    (b.onLine (Line.hearing rx i k)).offer p f = (b.offer p f).onLine (Line.hearing rx i k) := by
  unfold Blocks.offer
  rw [Blocks.onLine_pres]
  split
  · rw [Blocks.onLine_line, Line.offer_hearing]; rfl
  · rfl

theorem Blocks.offerSnap_hearing (sh : Shop) (b : Blocks) :
    (b.onLine (Line.hearing rx i k)).offerSnap sh = (b.offerSnap sh).onLine (Line.hearing rx i k) := by
  unfold Blocks.offerSnap
  rw [Blocks.onLine_asking]
  split
  · rfl
  · rw [← Blocks.offer_hearing]; rfl

theorem Blocks.snapCompleted_hearing (sh : Shop) (f : Frame) (b : Blocks) :
    (b.onLine (Line.hearing rx i k)).snapCompleted sh f = (b.snapCompleted sh f).onLine (Line.hearing rx i k) := by
  unfold Blocks.snapCompleted
  rw [Blocks.onLine_asking]
  repeat' split
  · rfl
  · rfl
  · rw [← Blocks.offerSnap_hearing]; rfl
  · rfl

theorem Blocks.askSent_hearing (sh : Shop) (b : Blocks) :
    (b.onLine (Line.hearing rx i k)).askSent sh = (b.askSent sh).onLine (Line.hearing rx i k) := by
  unfold Blocks.askSent Blocks.restartAskT
  rw [Blocks.onLine_pres]
  repeat' split
  all_goals rfl

theorem Blocks.ownCompleted_hearing (b : Blocks) :
    (b.onLine (Line.hearing rx i k)).ownCompleted = b.ownCompleted.onLine (Line.hearing rx i k) := by
  unfold Blocks.ownCompleted
  rw [Blocks.onLine_pres]
  split <;> rfl

/-- The completion of a sending neither reads nor moves what the receiver holds (R19). -/
theorem Blocks.completes_hearing (sh : Shop) (b : Blocks) :
    (b.onLine (Line.hearing rx i k)).completes sh = (b.completes sh).onLine (Line.hearing rx i k) := by
  have he : (b.onLine (Line.hearing rx i k)).line.emitting = b.line.emitting := rfl
  have h1 (d : Option Kind) : ((b.onLine (Line.hearing rx i k)).onLine (fun l =>
      { l.dropEmitted with failures := 0, yielding := true, txDone := d })).ownCompleted =
        (b.onLine (fun l =>
          { l.dropEmitted with failures := 0, yielding := true, txDone := d })).ownCompleted.onLine
            (Line.hearing rx i k) := by
    rw [← Blocks.ownCompleted_hearing]
    show Blocks.ownCompleted { b with line := { (b.line.hearing rx i k).dropEmitted with
      failures := 0, yielding := true, txDone := d } } = _
    rw [Line.dropEmitted_hearing]
    rfl
  unfold Blocks.completes
  rw [he]
  split
  · rfl
  · next e _ =>
    dsimp only
    rw [h1, Blocks.onLine_pres]
    split
    · exact Blocks.askSent_hearing rx i k sh _
    · exact Blocks.snapCompleted_hearing rx i k sh _ _
    all_goals rfl

end hearing

end Sys2Proof.Machine

namespace Sys2Proof.Machine

@[simp] theorem Blocks.seenHead_mem (sender target : Nat) (b : Blocks) :
    (b.seenHead sender target).pres.mem = b.pres.mem := by
  unfold Blocks.seenHead Blocks.rivalSnap Blocks.dropStream
  repeat' split
  all_goals rfl

/-! ## A run of characters -/

/-- The blocks with the receiver at `rx` after characters of a frame: idle has ended, and the yield, unless a frame of the
station's own is in emission (R2, R19). -/
def Blocks.heardTo (rx : Rx) (b : Blocks) : Blocks :=
  b.onLine (fun l =>
    { l with rx := rx, idle := false, badStop := false, yielding := l.yielding && l.emitting.isSome })

theorem heardTo_eq_hearing (rx : Rx) (b : Blocks) :
    b.heardTo rx = (b.onLine (fun l => { l with yielding := l.yielding && l.emitting.isSome })).onLine
      (Line.hearing rx false false) := rfl

theorem characterBegins_of_ready {b : Blocks} (h : b.line.rx = .ready) : b.characterBegins = b.heardTo .ready := by
  unfold Blocks.characterBegins Blocks.heardTo Blocks.onLine Line.readsOwn
  simp [h, Rx.inFrame]

/-- Where idle has ended and no yield stands but for an emission of its own, a start bit moves nothing. -/
theorem characterBegins_of_settled {b : Blocks} (hi : b.line.idle = false) (hs : b.line.badStop = false)
    (hy : b.line.yielding = true → b.line.emitting.isSome = true) : b.characterBegins = b := by
  have hl : ∀ l : Line, l.idle = false → l.badStop = false → (l.yielding = true → l.emitting.isSome = true) →
      ({ l with idle := false, badStop := false, yielding := l.yielding && l.readsOwn } : Line) = l := by
    intro l h1 h2 h3
    have h4 : (l.yielding && l.readsOwn) = l.yielding := by
      cases hl : l.yielding with
      | false => rfl
      | true => simp [Line.readsOwn, h3 hl]
    rw [h4]
    cases l
    simp_all
  exact congrArg (fun l => { b with line := l }) (hl b.line hi hs hy)

theorem characterBegins_heardTo (rx : Rx) (b : Blocks) : (b.heardTo rx).characterBegins = b.heardTo rx :=
  characterBegins_of_settled rfl rfl (fun h => (Bool.and_eq_true_iff.mp h).2)

/-- The characters of a frame read one after another, the mark bit in the head alone (R4). -/
def Station.receiveAll : List Byte → Station → Station
  | [], d => d
  | h :: rest, d => rest.foldl (fun x c => x.receive c false true) (d.receive h true true)

theorem Station.receiveAll_append {cs : List Byte} (h : cs ≠ []) (ds : List Byte) (d : Station) :
    d.receiveAll (cs ++ ds) = ds.foldl (fun x c => x.receive c false true) (d.receiveAll cs) := by
  obtain ⟨c, cs, rfl⟩ := List.exists_cons_of_ne_nil h
  exact List.foldl_append

/-- Characters that are heard on one after another stand in the receiver (R8). -/
theorem Station.receiveAll_more {d : Station} (hm : d.blk.pres.mem ≠ .inert) (hr : d.blk.line.rx = .ready) (h : Byte) (rest : List Byte)
    (hf : ∀ n, 0 < n → n ≤ (h :: rest).length → hearFrame d.blk.pres.station ((h :: rest).take n) = .more) :
    d.receiveAll (h :: rest) = { d with blk := d.blk.heardTo (.frame (h :: rest)) } := by
  induction rest using List.reverseRecOn with
  | nil =>
    have h1 : hearFrame d.blk.pres.station [h] = .more := hf 1 (by omega) (by simp)
    have hd : (within 1 7 (h.toNat / 16) && within 1 15 (h.toNat % 16)) = true := by
      by_contra hn
      rw [hearFrame_head, if_neg hn] at h1
      exact absurd h1 (by decide)
    have hc := character_head (b := d.blk.characterBegins) (data := h)
      (by rw [characterBegins_of_ready hr]; rfl) hd
    show d.receive h true true = _
    rw [Station.receive_none hm hc, characterBegins_of_ready hr]
    rfl
  | append_singleton rest c ih =>
    have h1 : hearFrame d.blk.pres.station (h :: rest ++ [c]) = .more := by
      have := hf (h :: (rest ++ [c])).length (by simp) (Nat.le_refl _)
      rwa [List.take_length] at this
    have hih := ih (fun n h0 hn => by
      have := hf n h0 (by simp only [List.length_cons, List.length_append] at hn ⊢; omega)
      rwa [← List.cons_append, List.take_append_of_le_length hn] at this)
    have hb : (d.blk.heardTo (.frame (h :: rest))).characterBegins = d.blk.heardTo (.frame (h :: rest)) :=
      characterBegins_heardTo _ _
    have hc := character_more (b := (d.blk.heardTo (.frame (h :: rest))).characterBegins) (data := c)
      (by rw [hb]; rfl) h1
    rw [← List.cons_append, Station.receiveAll_append (by simp), hih, List.foldl_cons, List.foldl_nil,
      Station.receive_none (d := { d with blk := d.blk.heardTo (.frame (h :: rest)) }) hm hc]
    dsimp only
    rw [hb]
    rfl

/-- A receiver that skips a frame reads its other characters and moves nothing by them (R11). -/
theorem Station.receive_skip {d : Station} (hm : d.blk.pres.mem ≠ .inert) (hr : d.blk.line.rx = .skip)
    (hb : d.blk.characterBegins = d.blk) (ds : List Byte) :
    ds.foldl (fun x c => x.receive c false true) d = d := by
  induction ds with
  | nil => rfl
  | cons c ds ih =>
    have hc := character_waiting (b := d.blk.characterBegins) (data := c) (mark := false) (stop := true)
      (by rw [hb]; exact Or.inr hr)
    rw [List.foldl_cons, Station.receive_none hm hc, hb]
    exact ih

/-! ## The commands of the two levels -/

theorem run_characters (cs : List Byte) : ∀ d : Station,
    Host.Core.run core cs.length
        (show core.State from { dev := d, pending := cs.map (fun c => .receiveCharacter c false true) }) =
      .next { dev := cs.foldl (fun x c => x.receive c false true) d, pending := [] } := by
  induction cs with
  | nil => intro d; rfl
  | cons c cs ih => intro d; exact ih (d.receive c false true)

theorem run_charCommands (cs : List Byte) (s : State) :
    Host.Core.run core cs.length (show core.State from { s with pending := charCommands cs }) =
      .next { dev := s.dev.receiveAll cs, pending := [] } := by
  cases cs with
  | nil => rfl
  | cons h rest => exact run_characters rest (s.dev.receive h true true)

/-- The command of a kind is the arrival of its whole frame (log 1). -/
theorem exec_command (k : Kind) (sender target : BitVec 4) (gen : Word16) (p : List Byte) (s : State) :
    exec (k.command sender target gen p) s = .next
      { s with
        dev := s.dev.frameArrives
          { kind := k, sender := sender.toNat, target := if k = .snap then target.toNat else 0, gen := gen
            payload := p } } := by
  cases k <;> rfl

/-- A frame whose fields a sender may fill so is not MALFORMED (R4, R5, R8). -/
theorem Taken.ok_of_sendable {station : Nat} {f : Frame} (h : f.Sendable station) (gen : Word16) :
    Taken.ok { kind := f.kind, sender := station, target := f.target, gen := gen, payload := f.payload } = true := by
  have ht := h.target
  simp only [Taken.ok, h.sender, Bool.true_and, Bool.and_eq_true, decide_eq_true_eq]
  refine ⟨h.length, ?_⟩
  split
  · next hk => rwa [if_pos hk] at ht
  · next hk => rw [if_neg hk] at ht; simp [ht]

/-! ## The two levels agree -/

/-- A taken frame overwrites what its characters moved at the receiver, its start bit at the yield among it (R12, R19). -/
theorem Station.takeFrame_heardTo (f : Taken) (rx : Rx) (d : Station) (hx : d.blk.line.txDone = none) :
    Station.takeFrame f { d with blk := d.blk.heardTo rx } = d.takeFrame f := by
  have hp : (d.blk.heardTo rx).pres = d.blk.pres := rfl
  have he : (d.blk.heardTo rx).line.emitting = d.blk.line.emitting := rfl
  by_cases hc : ∃ e, d.blk.line.emitting = some e ∧ f.sender = d.blk.pres.station ∧ e.frame.kind = f.kind
  · obtain ⟨e, hem, hown⟩ := hc
    have hy : d.blk.heardTo rx = d.blk.onLine (Line.hearing rx false false) := by
      rw [heardTo_eq_hearing]
      simp [Blocks.onLine, hem]
    have h1 : Station.completeFor f { d with blk := d.blk.heardTo rx } =
        { d with blk := (d.blk.completes d.shop).onLine (Line.hearing rx false false) } := by
      unfold Station.completeFor
      dsimp only
      rw [he, hem, hp]
      dsimp only
      rw [if_pos hown, hy, Blocks.completes_hearing]
    have h2 : Station.completeFor f d = { d with blk := d.blk.completes d.shop } := by
      unfold Station.completeFor
      rw [hem]
      dsimp only
      rw [if_pos hown]
    rw [Station.takeFrame_eq, Station.takeFrame_eq, Station.headTaken, Station.headTaken, h1, h2]
    rfl
  · have h1 : ∀ b : Blocks, b.pres = d.blk.pres → b.line.emitting = d.blk.line.emitting →
        Station.completeFor f { d with blk := b } = { d with blk := b } := by
      intro b hbp hbe
      unfold Station.completeFor
      dsimp only
      rw [hbe, hbp]
      split
      · next e hem => exact if_neg (fun hown => hc ⟨e, hem, hown⟩)
      · rfl
    have ho : ∀ b : Blocks, b.line.txDone = none → b.isOwn f = false := by
      intro b hb
      simp [Blocks.isOwn, hb]
    have hh : Blocks.peerHead f d.shop ((d.blk.heardTo rx).onLine Line.frameTaken) =
        Blocks.peerHead f d.shop (d.blk.onLine Line.frameTaken) := by
      have hline : (if ((d.blk.heardTo rx).onLine Line.frameTaken).line.emitting.isNone then
            ((d.blk.heardTo rx).onLine Line.frameTaken).onLine (fun l => { l with yielding := false })
          else (d.blk.heardTo rx).onLine Line.frameTaken) =
          if (d.blk.onLine Line.frameTaken).line.emitting.isNone then
            (d.blk.onLine Line.frameTaken).onLine (fun l => { l with yielding := false })
          else d.blk.onLine Line.frameTaken := by
        show (if d.blk.line.emitting.isNone then _ else _) = if d.blk.line.emitting.isNone then _ else _
        cases hem : d.blk.line.emitting with
        | none => rfl
        | some e =>
          simp only [Option.isNone_some, Bool.false_eq_true, if_false]
          simp [Blocks.heardTo, Blocks.onLine, Line.frameTaken, hem]
      unfold Blocks.peerHead
      dsimp only
      rw [hline]
      rfl
    rw [Station.takeFrame_eq, Station.takeFrame_eq, Station.headTaken, Station.headTaken,
      h1 (d.blk.heardTo rx) hp he, h1 d.blk rfl rfl, ho (d.blk.heardTo rx) hx, ho d.blk hx]
    dsimp only
    rw [if_neg (by decide), if_neg (by decide), hh]
    rfl

/-- A frame to this station or to all: its CHECK completes it, and it is taken (R10, R12). -/
theorem Station.receiveAll_taken {d : Station} {station : Nat} {f : Frame} (gen : Word16)
    (hm : d.blk.pres.mem ≠ .inert) (hr : d.blk.line.rx = .ready) (hx : d.blk.line.txDone = none)
    (h : f.Sendable station) (ho : f.kind ≠ .snap ∨ f.target = d.blk.pres.station) :
    d.receiveAll (frameChars station gen f) =
      d.takeFrame
        { kind := f.kind, sender := station, target := f.target, gen := gen, payload := f.payload } := by
  have hmid : d.receiveAll (frameFront station gen f) =
      { d with blk := d.blk.heardTo (.frame (frameFront station gen f)) } := by
    refine Station.receiveAll_more hm hr _ _ (fun n h0 hn => ?_)
    have hn' : n ≤ (frameFront station gen f).length := hn
    have := h.hears_more (gen := gen) ho h0 (by rw [frameFront_length] at hn'; omega)
    rwa [frameChars_eq, List.take_append_of_le_length hn'] at this
  have hb : (d.blk.heardTo (.frame (frameFront station gen f))).characterBegins =
      d.blk.heardTo (.frame (frameFront station gen f)) := characterBegins_heardTo _ _
  have hc := character_done (b := (d.blk.heardTo (.frame (frameFront station gen f))).characterBegins)
    (data := byte1 (255 - foldedSum (frameFront station gen f))) (by rw [hb]; rfl) (h.hears_done (gen := gen))
  rw [hb] at hc
  replace hc := hc.trans (congrArg (Prod.mk _) (h.parses (gen := gen)))
  rw [frameChars_eq, Station.receiveAll_append (by simp [frameFront]), hmid, List.foldl_cons, List.foldl_nil,
    Station.receive_some (d := { d with blk := d.blk.heardTo _ }) hm (by rw [hb]; exact hc)]
  exact Station.takeFrame_heardTo _ .waitIdle d hx

/-- A SNAP of another station to another is skipped at its TARGET, and its other characters move nothing (R11). -/
theorem Station.receiveAll_skipped {d : Station} {station : Nat} {f : Frame} (gen : Word16)
    (hm : d.blk.pres.mem ≠ .inert) (hr : d.blk.line.rx = .ready)
    (h : f.Sendable station) (hk : f.kind = .snap) (ho : f.target ≠ d.blk.pres.station) :
    d.receiveAll (frameChars station gen f) =
      { d with blk := (d.blk.heardTo .skip).seenHead station f.target } := by
  obtain ⟨rest, _, he⟩ := Frame.Sendable.chars_eq station gen f
  have hmid : d.receiveAll [headByte f.kind station, byte1 f.kind.code] =
      { d with blk := d.blk.heardTo (.frame [headByte f.kind station, byte1 f.kind.code]) } := by
    refine Station.receiveAll_more hm hr _ _ (fun n h0 hn => ?_)
    match n, h0, hn with
    | 1, _, _ => exact h.hears_head
    | 2, _, _ => exact h.hears_kind
    | m + 3, _, hn => simp at hn
  have hb : (d.blk.heardTo (.frame [headByte f.kind station, byte1 f.kind.code])).characterBegins =
      d.blk.heardTo (.frame [headByte f.kind station, byte1 f.kind.code]) := characterBegins_heardTo _ _
  have hc := character_skips (data := byte1 f.target) (h := headByte f.kind station) (c := byte1 f.kind.code)
    (b := (d.blk.heardTo (.frame [headByte f.kind station, byte1 f.kind.code])).characterBegins)
    (by rw [hb]; rfl) (h.skips_target hk ho)
  rw [headByte_mod _ h.station_le, h.target_toNat, hb] at hc
  have k := (Tells.refl (d.blk.heardTo .skip)).seenHead station f.target
  have hskip : ((d.blk.heardTo .skip).seenHead station f.target).characterBegins =
      (d.blk.heardTo .skip).seenHead station f.target := by
    refine characterBegins_of_settled k.wire.idle k.wire.badStop (fun h => ?_)
    rw [k.wire.yielding] at h
    rw [Line.emitting_isSome_eq, Blocks.seenHead_emissions, ← Line.emitting_isSome_eq]
    exact (Bool.and_eq_true_iff.mp h).2
  rw [he, show headByte f.kind station :: byte1 f.kind.code :: byte1 f.target :: byte1 f.payload.length :: rest =
      [headByte f.kind station, byte1 f.kind.code] ++ (byte1 f.target :: byte1 f.payload.length :: rest) from rfl,
    Station.receiveAll_append (by simp), hmid, List.foldl_cons,
    Station.receive_none (d := { d with blk := d.blk.heardTo _ }) hm (by rw [hb]; exact hc)]
  exact Station.receive_skip (d := { d with blk := (d.blk.heardTo .skip).seenHead station f.target })
    (by rw [Blocks.seenHead_mem]; exact hm) k.wire.rx hskip _

/-- Settles O13: the characters are taken in one by one up to the CHECK, or up to the TARGET of a SNAP to another station,
and what they move at the receiver the whole frame's command moves too. -/
theorem charactersMakeTheFrame : Obligations.CharactersMakeTheFrame := by
  intro k sender target gen p s hm hs hp hr hx hsnap f
  have hsend : f.Sendable sender.toNat := by
    refine ⟨?_, hp, ?_⟩
    · have h0 : sender.toNat ≠ 0 := fun e => hs (BitVec.eq_of_toNat_eq e)
      have := sender.isLt
      exact (within_iff _ _ _).mpr ⟨by omega, by omega⟩
    · show if k = .snap then within 1 15 (if k = .snap then target.toNat else 0) = true
        else (if k = .snap then target.toNat else 0) = 0
      by_cases hk : k = .snap
      · have h0 : target.toNat ≠ 0 := fun e => (hsnap hk).1 (BitVec.eq_of_toNat_eq e)
        have := target.isLt
        rw [if_pos hk, if_pos hk]
        exact (within_iff _ _ _).mpr ⟨by omega, by omega⟩
      · rw [if_neg hk, if_neg hk]
  have hrun := run_charCommands (frameChars sender.toNat gen f) s
  rw [frameChars_length] at hrun
  refine hrun.trans ?_
  rw [exec_command]
  refine congrArg (fun d => Host.Outcome.next (State.mk d [])) ?_
  have hok := Taken.ok_of_sendable hsend gen
  show s.dev.receiveAll (frameChars sender.toNat gen f) = s.dev.frameArrives
    { kind := f.kind, sender := sender.toNat, target := f.target, gen := gen, payload := f.payload }
  unfold Station.frameArrives
  rw [if_pos (Blocks.onAir_of hm), if_pos hok]
  by_cases hskip : f.kind = .snap ∧ f.target ≠ s.dev.blk.pres.station
  · obtain ⟨hk, ho⟩ := hskip
    have hpeer : sender.toNat ≠ s.dev.blk.pres.station := by
      refine (hsnap hk).2.resolve_left (fun e => ho ?_)
      rw [← e]
      exact if_pos hk
    have hbit : (s.dev.blk.startBit sender.toNat).onLine (fun l => { l with rx := .skip }) = s.dev.blk.heardTo .skip := by
      have hy : (s.dev.blk.line.yielding &&
          !(s.dev.blk.line.emitting.isNone && sender.toNat != s.dev.blk.pres.station)) =
            (s.dev.blk.line.yielding && s.dev.blk.line.emitting.isSome) := by
        cases s.dev.blk.line.emitting <;> simp [hpeer]
      unfold Blocks.startBit Blocks.heardTo Blocks.onLine
      dsimp only
      rw [hy]
    rw [if_pos ⟨hk, ho⟩, Station.receiveAll_skipped gen hm hr hsend hk ho, hbit]
  · rw [if_neg hskip, Station.receiveAll_taken gen hm hr hx hsend]
    by_contra hn
    push Not at hn
    exact hskip hn

end Sys2Proof.Machine

/-! What a move told as news leaves alone beside the straps and the receiver: the saw's encoder count, the cost clock, what
the plant unit has measured, the notices posted before, and that no entry starts by it. Within one block's own moves
(`news = false`) the grant, the membership and the plant unit stand too. One lemma an operation, each reading `from what
held before the operation to what holds after it`. -/

namespace Sys2Proof.Machine

/-- From the blocks `a` to the blocks `b`, these have stood. -/
structure Moves (news : Bool) (a b : Blocks) : Prop where
  enc : b.saw.enc = a.saw.enc
  clockT : b.cost.clockT = a.cost.clockT
  band : b.plant.band = a.plant.band
  turbid : b.plant.turbid = a.plant.turbid
  correction : b.plant.correction = a.plant.correction
  published : b.plant.published = a.plant.published
  notices : a.host.notices <+: b.host.notices
  still : a.line.emissions = 0 → b.line.emissions = 0
  mem : news = false → b.pres.mem = a.pres.mem
  grant : news = false → b.saw.grant = a.saw.grant
  plant : news = false → b.plant = a.plant
  snapNow : a.asking.snapHeard = some a.now → b.asking.snapHeard = some b.now

/-! ## The cost unit's clock -/

namespace CostUnit

@[simp] theorem reserve_clockT (n : Nat) (c : CostUnit) : (c.reserve n).clockT = c.clockT := by
  unfold CostUnit.reserve
  repeat' split
  all_goals rfl

@[simp] theorem release_clockT (n : Nat) (c : CostUnit) : (c.release n).clockT = c.clockT := by
  unfold CostUnit.release
  split <;> rfl

@[simp] theorem joined_clockT (n i : Nat) (c : CostUnit) : (c.joined n i).clockT = c.clockT := by
  unfold CostUnit.joined
  dsimp only
  split <;> rfl

end CostUnit

namespace Moves

variable {n : Bool} {a b b₀ : Blocks}

theorem refl (n : Bool) (a : Blocks) : Moves n a a :=
  ⟨rfl, rfl, rfl, rfl, rfl, rfl, List.prefix_refl _, id, fun _ => rfl, fun _ => rfl, fun _ => rfl, id⟩

theorem trans {c : Blocks} (h : Moves n a b) (k : Moves n b c) : Moves n a c :=
  ⟨k.enc.trans h.enc, k.clockT.trans h.clockT, k.band.trans h.band, k.turbid.trans h.turbid,
    k.correction.trans h.correction, k.published.trans h.published, h.notices.trans k.notices,
    fun x => k.still (h.still x), fun x => (k.mem x).trans (h.mem x), fun x => (k.grant x).trans (h.grant x),
    fun x => (k.plant x).trans (h.plant x), fun x => k.snapNow (h.snapNow x)⟩

/-- A block's own moves are moves told as news. -/
theorem asNews (h : Moves n a b) : Moves true a b :=
  { h with mem := fun x => absurd x (by decide), grant := fun x => absurd x (by decide)
           plant := fun x => absurd x (by decide) }

/-! ## The updates of one block's state -/

/-- A change of the blocks that the structure does not name. -/
theorem same {c : Blocks} (h : Moves n a b) (h1 : c.saw = b.saw) (h2 : c.cost = b.cost) (h3 : c.plant = b.plant)
    (h4 : c.host = b.host) (h5 : c.line = b.line) (h6 : c.pres.mem = b.pres.mem)
    (h7 : c.asking.snapHeard = b.asking.snapHeard) (h8 : c.now = b.now) : Moves n a c :=
  h.trans ⟨by rw [h1], by rw [h2], by rw [h3], by rw [h3], by rw [h3], by rw [h3], by rw [h4],
    by rw [h5]; exact id, fun _ => h6, fun _ => by rw [h1], fun _ => h3, by rw [h7, h8]; exact id⟩

/-- A change of the table unit's bookkeeping that leaves the heard record. -/
theorem onAsking (h : Moves n a b) {f : Asking → Asking} (hf : (f b.asking).snapHeard = b.asking.snapHeard) :
    Moves n a (b.onAsking f) := h.same rfl rfl rfl rfl rfl rfl hf rfl

theorem setStream (h : Moves n a b) (x : Option Stream) : Moves n a (b.setStream x) := h.onAsking rfl
theorem setAskT (h : Moves n a b) (t : Option Nat) : Moves n a (b.setAskT t) := h.same rfl rfl rfl rfl rfl rfl rfl rfl
theorem onPlanner (h : Moves n a b) (f : Planner → Planner) : Moves n a (b.onPlanner f) :=
  h.same rfl rfl rfl rfl rfl rfl rfl rfl
theorem onPlan (h : Moves n a b) (f : Plan → Plan) : Moves n a (b.onPlan f) := h.same rfl rfl rfl rfl rfl rfl rfl rfl
theorem setPlan (h : Moves n a b) (p : Option Plan) : Moves n a (b.setPlan p) := h.same rfl rfl rfl rfl rfl rfl rfl rfl
theorem setSealT (h : Moves n a b) (t : Option Nat) : Moves n a (b.setSealT t) := h.onPlanner _
theorem serialTaken (h : Moves n a b) (sh : Shop) : Moves n a (b.serialTaken sh) := h.same rfl rfl rfl rfl rfl rfl rfl rfl

/-- A change of the presence unit that leaves the membership. -/
theorem onPres (h : Moves n a b) {f : Presence → Presence} (hm : (f b.pres).mem = b.pres.mem) :
    Moves n a (b.onPres f) := h.same rfl rfl rfl rfl rfl hm rfl rfl

theorem setMem (h : Moves true a b) (m : Membership) : Moves true a (b.setMem m) :=
  h.trans ⟨rfl, rfl, rfl, rfl, rfl, rfl, List.prefix_refl _, id, fun x => absurd x (by decide), fun _ => rfl,
    fun _ => rfl, id⟩

/-- A change of the sequencer that leaves the encoder count and the grant. -/
theorem onSaw (h : Moves n a b) {f : Saw → Saw} (he : (f b.saw).enc = b.saw.enc) (hg : (f b.saw).grant = b.saw.grant) :
    Moves n a (b.onSaw f) :=
  h.trans ⟨he, rfl, rfl, rfl, rfl, rfl, List.prefix_refl _, id, fun _ => rfl, fun _ => hg, fun _ => rfl, id⟩

theorem onMeas (h : Moves n a b) (x : Meas) : Moves n a { b with meas := x } := h.same rfl rfl rfl rfl rfl rfl rfl rfl

/-- A change of the cost unit that leaves its clock. -/
theorem onCost (h : Moves n a b) {f : CostUnit → CostUnit} (hc : (f b.cost).clockT = b.cost.clockT) :
    Moves n a (b.onCost f) :=
  h.trans ⟨rfl, hc, rfl, rfl, rfl, rfl, List.prefix_refl _, id, fun _ => rfl, fun _ => rfl, fun _ => rfl, id⟩

/-- The plant unit's last sent value, its spacing timer and its standby are moved by news. -/
theorem onPlant (h : Moves true a b) {f : PlantUnit → PlantUnit} (h1 : (f b.plant).band = b.plant.band)
    (h2 : (f b.plant).turbid = b.plant.turbid) (h3 : (f b.plant).correction = b.plant.correction)
    (h4 : (f b.plant).published = b.plant.published) : Moves true a (b.onPlant f) :=
  h.trans ⟨rfl, rfl, h1, h2, h3, h4, List.prefix_refl _, id, fun _ => rfl, fun _ => rfl,
    fun x => absurd x (by decide), id⟩

/-- A change of the queue by which no entry starts. -/
theorem onQueue (h : Moves n a b) {l : Line} (hl : l.emissions = b.line.emissions) : Moves n a { b with line := l } :=
  h.trans ⟨rfl, rfl, rfl, rfl, rfl, rfl, List.prefix_refl _, fun x => hl.trans x, fun _ => rfl, fun _ => rfl,
    fun _ => rfl, id⟩

theorem offer (h : Moves n a b) (p : Producer) (f : Frame) : Moves n a (b.offer p f) := by
  unfold Blocks.offer
  split
  · exact h.onQueue (Line.emissions_offer p f b.line)
  · exact h

theorem withdraw (h : Moves n a b) (p : Producer) (sel : Frame → Bool) : Moves n a (b.withdraw p sel) :=
  h.onQueue (Line.emissions_withdraw p sel false b.line)

/-- A notice joins behind those that stand, or is dropped (R191). -/
theorem post (h : Moves n a b) (x : Notice) : Moves n a (b.post x) := by
  refine h.trans ⟨by simp, by simp, by simp, by simp, by simp, by simp, ?_, by simp, by simp, by simp, by simp, by simp⟩
  unfold Blocks.post
  repeat' split
  · exact List.prefix_refl _
  · exact List.prefix_append _ _
  · exact List.prefix_refl _

/-- A run of moves. -/
theorem foldl {β : Type} {f : Blocks → β → Blocks} (hf : ∀ x c, Moves n a c → Moves n a (f c x)) :
    ∀ (l : List β) {b : Blocks}, Moves n a b → Moves n a (l.foldl f b) := by
  intro l
  induction l with
  | nil => intro b h; exact h
  | cons x rest ih => intro b h; exact ih (hf x b h)

theorem postAll (h : Moves n a b) (l : List Notice) : Moves n a (b.postAll l) := foldl (fun x _ k => k.post x) l h

/-! ## The table unit -/

theorem offerSnap (h : Moves n a b) (sh : Shop) : Moves n a (b.offerSnap sh) := by
  unfold Blocks.offerSnap
  split
  · exact h
  · exact (h.setStream _).offer _ _

theorem startStream (h : Moves n a b) (sh : Shop) (asker : Nat) : Moves n a (b.startStream sh asker) :=
  (h.setStream _).offerSnap sh

theorem refreshStream (h : Moves n a b) (sh : Shop) : Moves n a (b.refreshStream sh) := by
  unfold Blocks.refreshStream
  split
  · exact (h.withdraw _ _).offerSnap sh
  · exact h

theorem restartStream (h : Moves n a b) (sh : Shop) : Moves n a (b.restartStream sh) := by
  unfold Blocks.restartStream
  split
  · exact h
  · exact (h.withdraw _ _).startStream sh _

theorem dropStream (h : Moves n a b) : Moves n a b.dropStream := by
  unfold Blocks.dropStream
  split
  · exact h
  · exact (h.withdraw _ _).setStream _

theorem streamAfter (h : Moves n a b) (members ledger : Bool) (sh : Shop) :
    Moves n a (b.streamAfter members ledger sh) := by
  unfold Blocks.streamAfter
  repeat' split
  · exact h
  · exact h.restartStream sh
  · exact h.refreshStream sh

theorem rivalSnap (h : Moves n a b) (sender asker : Nat) : Moves n a (b.rivalSnap sender asker) := by
  unfold Blocks.rivalSnap
  repeat' split
  · exact h
  · exact h.dropStream
  · exact h

theorem restartAskT (h : Moves n a b) : Moves n a b.restartAskT := by
  unfold Blocks.restartAskT
  split
  · exact h
  · exact h.setAskT _

theorem clearAsks (h : Moves n a b) : Moves n a b.clearAsks := h.onAsking rfl

theorem snapHeardNow (h : Moves n a b) : Moves n a b.snapHeardNow :=
  h.trans ⟨rfl, rfl, rfl, rfl, rfl, rfl, List.prefix_refl _, id, fun _ => rfl, fun _ => rfl, fun _ => rfl, fun _ => rfl⟩

theorem withdrawRebase (h : Moves n a b) : Moves n a b.withdrawRebase := h.onQueue (Line.emissions_withdraw _ _ _ _)

theorem ask (h : Moves n a b) (sh : Shop) : Moves n a (b.ask sh) := by
  have h1 := (h.setAskT none).onAsking (f := fun x => { x with answered := false }) rfl
  unfold Blocks.ask
  dsimp only
  repeat' split
  · exact h1
  · exact h1.offer _ _
  · exact h

/-! ## The sequencer's own moves (08) -/

theorem setValve (h : Moves n a b) (v : Nat) : Moves n a (b.setValve v) := by
  have h1 := h.onSaw (f := fun w => { w with valve := v }) rfl rfl
  unfold Blocks.setValve
  dsimp only
  repeat' split
  · exact h1.onMeas _
  · exact h1.onMeas _
  · exact h1

theorem valveAtGrant (h : Moves n a b) : Moves n a b.valveAtGrant := h.setValve _

theorem bladeOff (h : Moves n a b) : Moves n a b.bladeOff :=
  (h.onSaw (f := fun w => { w with blade := false, spinT := none, atSpeed := false }) rfl rfl).setValve 0

theorem bladeOn (h : Moves n a b) : Moves n a b.bladeOn :=
  (h.onSaw (f := fun w => { w with blade := true, spinT := b.after 3000, atSpeed := false }) rfl rfl).valveAtGrant

theorem feedOff (h : Moves n a b) : Moves n a b.feedOff := h.onSaw rfl rfl

theorem setRate (h : Moves n a b) : Moves n a b.setRate := h.onSaw rfl rfl

theorem startDrop (h : Moves n a b) : Moves n a b.startDrop := by
  unfold Blocks.startDrop
  split
  · exact h.onSaw rfl rfl
  · exact h

theorem reportState (h : Moves n a b) (st : SawState) : Moves n a (b.reportState st) := by
  unfold Blocks.reportState
  split
  · exact h
  · exact h.onPlan _

theorem reportFault (h : Moves n a b) (r : FaultReason) : Moves n a (b.reportFault r) := h.onPlan _

theorem reportStarted (h : Moves n a b) : Moves n a b.reportStarted := h.onPlan _

theorem reportCutDone (h : Moves n a b) (i : Nat) : Moves n a (b.reportCutDone i) := h.onPlan _

/-- The remnants of a CONSUME take their serials (R66, R134). -/
theorem takeRemnants (sh : Shop) (l : List Offcut) : ∀ acc : List Remnant × Blocks, Moves n a acc.2 →
    Moves n a (l.foldl (fun acc x => Blocks.takeRemnant sh x acc) acc).2 := by
  induction l with
  | nil => intro acc h; exact h
  | cons x rest ih => intro acc h; exact ih _ (h.serialTaken sh)

theorem offerConsume (h : Moves n a b) (sh : Shop) : Moves n a (b.offerConsume sh) := by
  unfold Blocks.offerConsume
  split
  · exact h
  · exact ((takeRemnants sh _ ([], b) h).onPlan _).offer _ _

theorem reportFinishing (h : Moves n a b) (sh : Shop) : Moves n a (b.reportFinishing sh) := by
  unfold Blocks.reportFinishing
  dsimp only
  repeat' split
  · exact h
  · exact (h.reportState _).onPlan _
  · exact (h.reportState _).offerConsume sh

theorem sawEnter (h : Moves n a b) (st : SawState) : Moves n a (b.sawEnter st) :=
  (h.onSaw (f := fun w => { w with st := st }) rfl rfl).reportState st

theorem sawFault (h : Moves n a b) (r : FaultReason) : Moves n a (b.sawFault r) := by
  have h1 := ((h.feedOff.bladeOff.onSaw (f := fun w =>
    { w with
      holdT := none, idleSpinT := none, st := .faulted, fault := some r, resumeCut := b.saw.resumeAt.1
      resumeEntered := b.saw.resumeAt.2 }) rfl rfl).reportFault r).startDrop
  unfold Blocks.sawFault
  dsimp only
  split
  · exact h1
  · exact h1.post _

theorem pulseBegins (h : Moves n a b) : Moves n a b.pulseBegins := by
  have h1 := h.onSaw (f := fun w => { w with cmd := w.cmd + 1, pulsePeriod := pulsePeriod w.feedRate }) rfl rfl
  unfold Blocks.pulseBegins
  dsimp only
  split
  · exact h1.sawFault _
  · exact h1

theorem askCheck (h : Moves n a b) (sh : Shop) : Moves n a (b.askCheck sh) := by
  unfold Blocks.askCheck
  split
  · exact h.offer _ _
  · exact h

theorem enterFinishing (h : Moves n a b) (sh : Shop) : Moves n a (b.enterFinishing sh) :=
  (h.bladeOff.onSaw (f := fun w => { w with st := .finishing, holdT := none, idleSpinT := none }) rfl rfl).reportFinishing
    sh

theorem completeCut (h : Moves n a b) (sh : Shop) : Moves n a (b.completeCut sh) := by
  unfold Blocks.completeCut
  split
  · next c p _ _ =>
    have h1 := (h.feedOff.onSaw (f := fun w => { w with plan := some { p with cuts := markDone b.saw.cur p.cuts } })
      rfl rfl).reportCutDone b.saw.cur
    have h2 := (h1.onCost (f := CostUnit.chargeFace c.job (c.length * p.thickness)) rfl).post
      (.cutDone b.saw.cur c.kind c.job)
    dsimp only
    split
    · exact (h2.onSaw rfl rfl).sawEnter _
    · exact h2.enterFinishing sh
  · exact h

theorem enterCutting (h : Moves n a b) (sh : Shop) : Moves n a (b.enterCutting sh) := by
  have h1 := ((h.onSaw (f := fun w => { w with holdT := none, idleSpinT := none, started := true }) rfl rfl).sawEnter
    .cutting).reportStarted.valveAtGrant
  unfold Blocks.enterCutting
  dsimp only
  split
  · exact h1.completeCut sh
  · exact (h1.setRate.onSaw rfl rfl).pulseBegins

theorem enterSpinup (h : Moves n a b) (sh : Shop) : Moves n a (b.enterSpinup sh) := by
  have h1 := (h.onSaw (f := fun w => { w with holdT := none }) rfl rfl).sawEnter .spinup
  unfold Blocks.enterSpinup
  dsimp only
  repeat' split
  · exact h1.enterCutting sh
  · exact h1.valveAtGrant
  · exact h1.sawFault _
  · exact h1.bladeOn

theorem enterWaterWait (h : Moves n a b) (sh : Shop) : Moves n a (b.enterWaterWait sh) := by
  have h1 := (h.feedOff.bladeOff.onSaw (f := fun w =>
    { w with idleSpinT := none, holdT := if w.started then b.after 30000 else none }) rfl rfl).sawEnter .waterWait
  unfold Blocks.enterWaterWait
  dsimp only
  split
  · exact h1.enterSpinup sh
  · exact h1

theorem enterHeld (h : Moves n a b) : Moves n a b.enterHeld := by
  have h1 := (h.feedOff.onSaw (f := fun w => { w with holdT := b.after 30000 }) rfl rfl).sawEnter .held
  unfold Blocks.enterHeld
  dsimp only
  split
  · exact h1.valveAtGrant
  · exact h1.bladeOff

theorem grantInHeld (h : Moves n a b) (sh : Shop) : Moves n a (b.grantInHeld sh) := by
  unfold Blocks.grantInHeld
  repeat' split
  · exact h.enterCutting sh
  · exact h.enterSpinup sh
  · exact h.valveAtGrant
  · exact h.sawFault _
  · exact h.bladeOn
  · exact h.bladeOff

theorem grantMoves (h : Moves n a b) (sh : Shop) : Moves n a (b.grantMoves sh) := by
  unfold Blocks.grantMoves
  repeat' split
  · exact h
  · exact h
  · exact h
  · exact h
  · exact h.enterSpinup sh
  · exact h
  · exact h.valveAtGrant
  · exact h.enterWaterWait sh
  · exact h.setRate.valveAtGrant
  · exact h.enterHeld
  · exact h.grantInHeld sh
  · exact h.valveAtGrant
  · exact h.bladeOff.onSaw rfl rfl
  · exact h

/-! ## The grant (R100, R149) -/

theorem setGrant (h : Moves true a b) (sh : Shop) (g : Nat) : Moves true a (b.setGrant sh g) := by
  unfold Blocks.setGrant
  split
  · exact h
  · refine Moves.grantMoves (h.trans ?_) sh
    exact ⟨rfl, rfl, rfl, rfl, rfl, rfl, List.prefix_refl _, id, fun _ => rfl, fun x => absurd x (by decide),
      fun _ => rfl, id⟩

theorem grantReport (h : Moves true a b) (before : Nat) (sh : Shop) : Moves true a (b.grantReport before sh) := by
  unfold Blocks.grantReport
  split
  · exact h
  · exact (h.setGrant sh _).post _

/-! ## The plant unit (06) -/

theorem offerBudget (h : Moves true a b) (v : Nat) : Moves true a (b.offerBudget v) :=
  (h.onPlant rfl rfl rfl rfl).offer _ _

theorem withdrawBudget (h : Moves n a b) : Moves n a b.withdrawBudget := h.onQueue (Line.emissions_withdraw _ _ _ _)

theorem plantCompare (h : Moves true a b) (sh : Shop) : Moves true a (b.plantCompare sh) := by
  unfold Blocks.plantCompare Blocks.comparePublished
  dsimp only
  repeat' split
  · exact h
  · exact h
  · exact h.withdrawBudget.offerBudget _
  · exact h.withdrawBudget
  · exact h
  · exact (h.offerBudget _).onPlant rfl rfl rfl rfl
  · exact h
  · exact h

theorem ledgerReport (h : Moves true a b) (sh : Shop) : Moves true a (b.ledgerReport sh) := by
  unfold Blocks.ledgerReport
  split
  · exact (h.onPlant rfl rfl rfl rfl).plantCompare sh
  · exact h

theorem enterStandby (h : Moves true a b) (sh : Shop) : Moves true a (b.enterStandby sh) := by
  unfold Blocks.enterStandby
  split
  · exact ((h.onPlant rfl rfl rfl rfl).withdraw _ _).post _
  · exact h

theorem leaveStandby (h : Moves true a b) : Moves true a b.leaveStandby := by
  unfold Blocks.leaveStandby
  split
  · exact h.onPlant rfl rfl rfl rfl
  · exact h

theorem reportIntoStandby (h : Moves true a b) (sh : Shop) : Moves true a (b.reportIntoStandby sh) := by
  unfold Blocks.reportIntoStandby
  split
  · exact ((h.onPlant rfl rfl rfl rfl).enterStandby sh).plantCompare sh
  · exact h

theorem plantCurrent (h : Moves true a b) (sh : Shop) : Moves true a (b.plantCurrent sh) := by
  have h1 {c : Blocks} (k : Moves true a c) :
      Moves true a (if live sh c && sh.otherPlant c.pres.station then c.reportIntoStandby sh else c.ledgerReport sh) := by
    split
    · exact k.reportIntoStandby sh
    · exact k.ledgerReport sh
  unfold Blocks.plantCurrent
  split
  · exact h1 h.leaveStandby
  · exact h1 h

/-! ## The cost unit (09) -/

theorem reportLine (h : Moves n a b) (slot : Nat) (x : CostLine) : Moves n a (b.reportLine slot x) :=
  (h.onCost (f := fun c =>
    { c with lines := Slots.set slot { x with state := .sent } c.lines, reports := c.reports ++ [.line slot x.job] })
    rfl).offer _ _

theorem reportChecks (h : Moves n a b) (sh : Shop) : Moves n a (b.reportChecks sh) := by
  unfold Blocks.reportChecks
  split
  · refine foldl (fun x c k => ?_) _ h
    split
    · exact k.reportLine _ _
    · exact k
  · exact h

theorem zeroCheck (h : Moves n a b) (sh : Shop) (job : Nat) : Moves n a (b.zeroCheck sh job) := by
  unfold Blocks.zeroCheck
  split
  · exact (h.onCost (f := fun c => { c with reports := c.reports ++ [.zero job] }) rfl).offer _ _
  · exact h

theorem costPlanEnded (h : Moves n a b) (sh : Shop) : Moves n a (b.costPlanEnded sh) :=
  (h.onCost (f := fun c => { c with first := none }) rfl).reportChecks sh

theorem costCurrent (h : Moves n a b) (sh : Shop) : Moves n a (b.costCurrent sh) :=
  foldl (fun x _ k => k.zeroCheck sh x) _
    ((h.onCost (f := CostUnit.dueFor (leftOpen sh.rep)) rfl).reportChecks sh)

/-! ## The planner (07) -/

theorem search (h : Moves n a b) (sh : Shop) : Moves n a (b.search sh) := by
  have h1 := (h.onPlanner (fun p => { p with pieces := (searchPieces sh.rep b.cost b.planner.pieces).pieces })).postAll
    (searchPieces sh.rep b.cost b.planner.pieces).posts
  unfold Blocks.search
  dsimp only
  repeat' split
  · exact h1
  · exact ((h1.onCost (CostUnit.reserve_clockT _ _)).setPlan _).offer _ _
  · exact h

theorem takeUp (h : Moves n a b) (p : Plan) : Moves n a (b.takeUp p) := (h.onSaw rfl rfl).sawEnter .loadWait

theorem sealNow (h : Moves n a b) : Moves n a b.sealNow := by
  unfold Blocks.sealNow
  split
  · exact h
  · exact (((h.setSealT none).onPlan _).post _).takeUp _

theorem placePiece (h : Moves n a b) (p : Piece) (i : Nat) (x : Offcut) : Moves n a (b.placePiece p i x) := by
  unfold Blocks.placePiece
  split
  · exact h
  · exact ((h.onPlanner _).onCost (CostUnit.joined_clockT _ _ _)).post _

theorem lookUpTo (sh : Shop) : ∀ (m : Nat) {b : Blocks}, Moves n a b → Moves n a (b.lookUpTo sh m) := by
  intro m
  induction m with
  | zero => intro b h; exact h
  | succ m ih =>
    intro b h
    unfold Blocks.lookUpTo
    dsimp only
    repeat' split
    · exact h
    · exact h.sealNow
    · exact ih ((h.onCost (CostUnit.reserve_clockT _ _)).placePiece _ _ _)
    · exact h
    · exact h.setSealT _
    · exact h.sealNow
    · exact h

theorem look (h : Moves n a b) (sh : Shop) : Moves n a (b.look sh) := by
  unfold Blocks.look
  split
  · exact lookUpTo sh 7 h
  · exact h

theorem searchOrLook (h : Moves n a b) (sh : Shop) : Moves n a (b.searchOrLook sh) := (h.search sh).look sh

theorem claimFails (h : Moves n a b) (sh : Shop) (p : Plan) : Moves n a (b.claimFails sh p) :=
  ((((h.onCost (CostUnit.release_clockT _ _)).setPlan none).setSealT none).costPlanEnded sh).search sh

theorem withdrawClaim (h : Moves n a b) (sh : Shop) (p : Plan) : Moves n a (b.withdrawClaim sh p) := by
  unfold Blocks.withdrawClaim
  dsimp only
  split
  · exact (h.withdraw _ _).claimFails sh p
  · exact h.withdraw _ _

theorem rereadJobs (h : Moves n a b) (sh : Shop) : Moves n a (b.rereadJobs sh) := by
  unfold Blocks.rereadJobs Blocks.jobsLeft
  have h1 := (h.onPlanner (fun p => { p with pieces := p.pieces.filter (fun x => !jobClosedIn sh.rep x.job) })).postAll
    (cancelNotices (b.planner.pieces.filter (fun x => jobClosedIn sh.rep x.job)))
  dsimp only
  repeat' split
  · exact h1
  · exact (h1.onPlan _).withdrawClaim sh _
  · exact h1

theorem plannerLeaves (h : Moves n a b) : Moves n a b.plannerLeaves :=
  (((h.withdraw .planner isRelease).withdraw .planner isConsume).onPlan _).setSealT none

theorem sawLeaves (h : Moves n a b) : Moves n a b.sawLeaves := h.withdraw _ _

/-! ## The presence unit and the replica's becoming CURRENT (02, 03) -/

theorem setPhase (h : Moves true a b) (ph : Phase) : Moves true a (b.setPhase ph) := by
  unfold Blocks.setPhase
  split
  · exact h
  · exact h.setMem _
  all_goals exact h

theorem offerJoin (h : Moves true a b) : Moves true a b.offerJoin := by
  unfold Blocks.offerJoin
  dsimp only
  split
  · exact h.setMem _
  · exact (h.setMem _).offer _ _

theorem leaveMember (h : Moves true a b) : Moves true a b.leaveMember := by
  have h1 : Moves true a (b.onPres (fun p => { p with mem := .joining, helloT := none })) :=
    (h.setMem .joining).same rfl rfl rfl rfl rfl rfl rfl rfl
  exact h1.withdraw _ _

theorem rejoinShop (h : Moves true a b) (gen : Word16) : Moves true a (b.rejoinShop gen) :=
  ((h.leaveMember.post (.goneSelf gen)).offerJoin).plannerLeaves.sawLeaves

theorem beginWatch (h : Moves n a b) (sh : Shop) : Moves n a (b.beginWatch sh) := h.onPres rfl

theorem presenceCurrent (h : Moves true a b) (sh : Shop) : Moves true a (b.presenceCurrent sh) := by
  unfold Blocks.presenceCurrent
  repeat' split
  · exact h.offerJoin
  · exact h.offerJoin
  · exact h.beginWatch sh
  · exact h.rejoinShop _
  all_goals exact h

theorem plannerCurrent (h : Moves true a b) (sh : Shop) : Moves true a (b.plannerCurrent sh) := by
  unfold Blocks.plannerCurrent
  dsimp only
  split
  · exact (h.rereadJobs sh).searchOrLook sh
  · exact h.rereadJobs sh

/-- A replica that has become CURRENT is news to every block (R44, R47). -/
theorem becomeCurrent (h : Moves true a b) (before : Nat) (sh : Shop) : Moves true a (b.becomeCurrent before sh) := by
  have h1 := (((h.clearAsks.setAskT none).withdraw .table isSyncAsk).withdraw .table isRebase).post (.synced sh.gen)
  exact ((((((h1.grantReport before sh).presenceCurrent sh).plantCurrent sh).plannerCurrent sh).askCheck sh).costCurrent
    sh)

theorem buildBegun (h : Moves true a b) : Moves true a b.buildBegun :=
  (h.restartAskT.withdraw .table isSyncAsk).setPhase .building

theorem takeSnapHere (f : Taken) (d : Station) : Moves true d.blk (d.takeSnapHere f).blk := by
  have h := (((refl true d.blk).clearAsks).onAsking (f := fun x => { x with answered := true }) rfl).withdrawRebase
  unfold Station.takeSnapHere
  dsimp only
  split
  · exact h
  · exact h.restartAskT
  · exact h.buildBegun
  · exact h.buildBegun
  · exact h.restartAskT
  · exact ((h.setPhase .asking).setAskT none).ask _
  · exact h.becomeCurrent _ _

end Moves

end Sys2Proof.Machine

/-! SNAP payloads (R194, R195, R198): a snapshot record survives its encoding. -/

namespace Sys2Proof.Machine

/-! ## Fields -/

theorem be16_byte1 {n : Nat} (h : n ≤ 65535) : be16 (byte1 (n / 256)) (byte1 n) = n := by
  simp only [be16, byte1, BitVec.toNat_ofNat]
  omega

theorem be32_byte1 {n : Nat} (h : n ≤ maxSum) :
    be32 (byte1 (n / 16777216)) (byte1 (n / 65536)) (byte1 (n / 256)) (byte1 n) = n := by
  simp only [maxSum] at h
  simp only [be32, byte1, BitVec.toNat_ofNat]
  omega

theorem SlabId.lawful_iff (i : SlabId) :
    i.lawful = true ↔ (1 ≤ i.origin ∧ i.origin ≤ 15) ∧ 1 ≤ i.serial ∧ i.serial ≤ 4095 := by
  simp [SlabId.lawful, within_iff]

theorem SlabId.code_le {i : SlabId} (h : i.lawful = true) : i.code ≤ 65535 := by
  rw [SlabId.lawful_iff] at h
  simp only [SlabId.code]
  omega

theorem SlabId.ofCode_code {i : SlabId} (h : i.lawful = true) : SlabId.ofCode i.code = some i := by
  rw [SlabId.lawful_iff] at h
  have h1 : i.code / 4096 = i.origin := by simp only [SlabId.code]; omega
  have h2 : i.code % 4096 = i.serial := by simp only [SlabId.code]; omega
  have h3 : i.code < 65536 := by simp only [SlabId.code]; omega
  have h4 : ¬ 65536 ≤ i.code := by omega
  simp only [SlabId.ofCode, h1, h2, decide_eq_false h4, Bool.or_false]
  rw [if_neg (by simp; omega)]

theorem optStation_toNat {o : Option Nat} (h : lawfulStation o = true) : (byte1 (optStation o)).toNat = optStation o := by
  cases o with
  | none => rfl
  | some s => exact byte1_toNat (by have := ((within_iff _ _ _).mp h).2; simp only [optStation]; omega)

theorem optStation_le {o : Option Nat} (h : lawfulStation o = true) : optStation o ≤ 15 := by
  cases o with
  | none => exact Nat.zero_le 15
  | some s => exact ((within_iff _ _ _).mp h).2

theorem ofOptStation {o : Option Nat} (h : lawfulStation o = true) :
    (if optStation o = 0 then none else some (optStation o)) = o := by
  cases o with
  | none => rfl
  | some s =>
    have := ((within_iff _ _ _).mp h).1
    exact if_neg (by simp only [optStation]; omega)

/-! ## Tallies and pending sets (R196) -/

theorem Tally.ofBytes_bytes {t : Tally} (h : t.lawful = true) : Tally.ofBytes t.bytes = some t := by
  simp only [Tally.lawful, Bool.and_eq_true, decide_eq_true_eq] at h
  obtain ⟨⟨⟨⟨⟨⟨h1, h2⟩, h3⟩, h4⟩, h5⟩, h6⟩, h7⟩ := h
  show some _ = some t
  rw [be32_byte1 h1, be32_byte1 h2, be32_byte1 h3, be32_byte1 h4, be32_byte1 h5, be32_byte1 h6, be16_byte1 h7]

/-- The bits of a pending set, one for each station that stands in it. -/
theorem pendingBits_filter (q : Nat → Bool) :
    pendingBits (stations.filter q) = (stations.map (fun s => 2 ^ s * (q s).toNat)).sum := by
  unfold pendingBits
  generalize stations = l
  induction l with
  | nil => rfl
  | cons s rest ih =>
    cases hq : q s <;> simp [hq, ih]

/-- A sum of powers of two over a run of stations, read bit by bit. -/
theorem sum_of_bits (q : Nat → Bool) : ∀ m k : Nat, ∃ n,
    ((List.range' k m).map (fun s => 2 ^ s * (q s).toNat)).sum = 2 ^ k * n ∧ n < 2 ^ m ∧
      ∀ i < m, n / 2 ^ i % 2 = (q (k + i)).toNat := by
  intro m
  induction m with
  | zero => exact fun k => ⟨0, by simp, by simp, fun i hi => absurd hi (by omega)⟩
  | succ m ih =>
    intro k
    obtain ⟨n, hsum, hlt, hbit⟩ := ih (k + 1)
    have hq : (q k).toNat ≤ 1 := Bool.toNat_le _
    refine ⟨(q k).toNat + 2 * n, ?_, by rw [pow_succ]; omega, fun i hi => ?_⟩
    · rw [List.range'_succ, List.map_cons, List.sum_cons, hsum, pow_succ]
      ring
    · cases i with
      | zero => simp only [pow_zero, Nat.div_one, Nat.add_zero]; omega
      | succ i =>
        have hhalf : ((q k).toNat + 2 * n) / 2 = n := by omega
        rw [pow_succ', ← Nat.div_div_eq_div_mul, hhalf, hbit i (by omega), Nat.add_assoc, Nat.add_comm 1 i]

theorem pendingBits_bits (q : Nat → Bool) : ∃ n, pendingBits (stations.filter q) = 2 * n ∧ n < 32768 ∧
    ∀ s ∈ stations, pendingBits (stations.filter q) / 2 ^ s % 2 = (q s).toNat := by
  obtain ⟨n, hsum, hlt, hbit⟩ := sum_of_bits q 15 1
  have hp : pendingBits (stations.filter q) = 2 * n := (pendingBits_filter q).trans hsum
  refine ⟨n, hp, hlt, fun s hs => ?_⟩
  have hr : s ∈ List.range' 1 15 := hs
  rw [List.mem_range'_1] at hr
  obtain ⟨i, rfl⟩ : ∃ i, s = 1 + i := ⟨s - 1, by omega⟩
  have hhalf : 2 * n / 2 = n := by omega
  rw [hp, Nat.pow_add, pow_one, ← Nat.div_div_eq_div_mul, hhalf, hbit i (by omega)]

theorem pendingOf_pendingBits {l : List Nat} (h : l = stations.filter (fun s => l.contains s)) :
    pendingOf (pendingBits l) = l := by
  obtain ⟨_, _, _, hbit⟩ := pendingBits_bits (fun s => l.contains s)
  rw [← h] at hbit
  conv_rhs => rw [h]
  refine List.filter_congr (fun s hs => ?_)
  rw [hbit s hs]
  cases l.contains s <;> rfl

theorem pendingBits_even_le {l : List Nat} (h : l = stations.filter (fun s => l.contains s)) :
    pendingBits l % 2 = 0 ∧ pendingBits l ≤ 65535 := by
  obtain ⟨n, hn, hlt, _⟩ := pendingBits_bits (fun s => l.contains s)
  rw [← h] at hn
  omega

/-! ## Records (R198) -/

theorem Job.ofBody_body {x : Job} (h : x.lawful = true) : Job.ofBody x.body = some x := by
  simp only [Job.lawful, Bool.and_eq_true, beq_iff_eq, within_iff] at h
  obtain ⟨⟨⟨⟨hn, ho⟩, hc⟩, hp⟩, ht⟩ := h
  obtain ⟨hpe, hpl⟩ := pendingBits_even_le hp
  have e1 := be16_byte1 hn.2
  have e2 : (byte1 x.opener).toNat = x.opener := byte1_toNat (by omega)
  have e3 := optStation_toNat hc
  have e4 := be16_byte1 hpl
  have ew : within 1 15 x.opener = true := (within_iff _ _ _).mpr ho
  have eo := ofOptStation hc
  have en : x.number ≠ 0 := by omega
  have es : (byte1 x.state.code).toNat = x.state.code := by cases x.state <;> rfl
  have est : (if x.state.code = 0 then JobState.opened else if x.state.code = 1 then .closing else .closed) = x.state ∧
      x.state.code ≤ 2 := by cases x.state <;> simp [JobState.code]
  have ef : (byte1 ((if x.short then 1 else 0) + (if x.closing.isSome then 2 else 0))).toNat =
      (if x.short then 1 else 0) + (if x.closing.isSome then 2 else 0) := by
    cases x.short <;> cases x.closing <;> rfl
  have efl : ((if x.short then 1 else 0) + (if x.closing.isSome then 2 else 0)) ≤ 3 ∧
      decide (((if x.short then 1 else 0) + (if x.closing.isSome then 2 else 0)) % 2 = 1) = x.short := by
    cases x.short <;> cases x.closing <;> simp
  have eg : (if 2 ≤ (if x.short then 1 else 0) + (if x.closing.isSome then 2 else 0) then
      some (BitVec.ofNat 16 (be16 (byte1 ((match x.closing with | none => 0 | some g => g.toNat) / 256))
        (byte1 (match x.closing with | none => 0 | some g => g.toNat)))) else none) = x.closing := by
    cases x.closing with
    | none => cases x.short <;> rfl
    | some g => cases x.short <;> simp [gen_of_chars]
  simp only [Job.body, bytes2, List.cons_append, List.nil_append, Job.ofBody, Tally.ofBytes_bytes ht, e1, e2, e3, e4,
    es, ef, ew, eo, est.1, est.2, efl.1, efl.2, hpe, en, optStation_le hc, pendingOf_pendingBits hp, ne_eq,
    not_false_eq_true, decide_true, Bool.and_self, if_true]
  exact congrArg (fun c => some { x with closing := c }) eg

theorem Slab.ofBody_body {x : Slab} (h : x.lawful = true) : Slab.ofBody x.body = some x := by
  simp only [Slab.lawful, Bool.and_eq_true, decide_eq_true_eq] at h
  obtain ⟨⟨⟨⟨⟨hi, hf⟩, hrack⟩, hr⟩, hk⟩, hs⟩ := h
  have hfields := hf
  simp only [slabFieldsOk, Bool.and_eq_true, within_iff] at hfields
  obtain ⟨⟨⟨hm, ht⟩, hl⟩, hw⟩ := hfields
  obtain ⟨id, kind, parent, material, thickness, length, width, rack, rate, state, holder⟩ := x
  dsimp only at *
  have e1 := be16_byte1 (SlabId.code_le hi)
  have e2 : (byte1 material).toNat = material := byte1_toNat (by omega)
  have e3 : (byte1 thickness).toNat = thickness := byte1_toNat (by omega)
  have e4 : be16 (byte1 (length / 256)) (byte1 length) = length := be16_byte1 (by omega)
  have e5 : be16 (byte1 (width / 256)) (byte1 width) = width := be16_byte1 (by omega)
  have e6 : (byte1 rack).toNat = rack := byte1_toNat (by omega)
  have e7 := be16_byte1 hr
  have hholder : lawfulStation holder = true ∧ (decide (state.code = 0) && decide (optStation holder = 0) ||
      within 1 2 state.code && within 1 15 (optStation holder)) = true := by
    cases holder with
    | none =>
      cases state with
      | free => exact ⟨rfl, rfl⟩
      | claimed | orphaned => exact absurd hs Bool.false_ne_true
    | some s =>
      cases state with
      | free => exact absurd hs Bool.false_ne_true
      | claimed | orphaned =>
        have hw : within 1 15 s = true := hs
        exact ⟨hw, by simp only [optStation, hw]; rfl⟩
  obtain ⟨hholder, e12⟩ := hholder
  have e8 := optStation_toNat hholder
  have e9 := ofOptStation hholder
  have e10 : (byte1 state.code).toNat = state.code := by cases state <;> rfl
  have e11 : (if state.code = 0 then SlabState.free else if state.code = 1 then .claimed else .orphaned) = state := by
    cases state <;> rfl
  simp only [Slab.body, bytes2, List.cons_append, List.nil_append, Slab.ofBody, e1, e2, e3, e4, e5, e6, e7, e8, e9,
    e10, e11, e12, hf, SlabId.ofCode_code hi, Bool.and_true]
  cases kind with
  | sheet =>
    cases parent with
    | none =>
      have hc : (byte1 SlabKind.sheet.code).toNat = 0 := rfl
      have h0 : be16 (byte1 (0 / 256)) (byte1 0) = 0 := rfl
      have ho : SlabId.ofCode 0 = none := rfl
      simp [hc, h0, ho]
    | some p => exact absurd hk Bool.false_ne_true
  | remnant =>
    cases parent with
    | none => exact absurd hk Bool.false_ne_true
    | some p =>
      have hp : p.lawful = true := hk
      have hc : (byte1 SlabKind.remnant.code).toNat = 1 := rfl
      simp [hc, be16_byte1 (SlabId.code_le hp), SlabId.ofCode_code hp]

theorem Record.ofBytes_bytes {r : Record} (h : r.lawful = true) : Record.ofBytes r.bytes = some r := by
  cases r with
  | member m =>
    obtain ⟨s, role⟩ := m
    have h1 : within 1 15 s = true := h
    have hs : (byte1 s).toNat = s := byte1_toNat (by rw [within_iff] at h1; omega)
    have he : Record.ofBytes (Record.member { station := s, role := role }).bytes =
      if within 1 15 (byte1 s).toNat && (byte1 role.code).toNat ≤ 1 then
        some (.member { station := (byte1 s).toNat, role := if (byte1 role.code).toNat = 0 then .cutter else .plant })
      else none := rfl
    rw [he, hs, h1]
    cases role <;> rfl
  | head budget plant =>
    simp only [Record.lawful, Bool.and_eq_true, decide_eq_true_eq] at h
    obtain ⟨hb, hp⟩ := h
    have he : Record.ofBytes (Record.head budget plant).bytes =
      if be16 (byte1 (budget / 256)) (byte1 budget) ≤ 8000 && (byte1 (optStation plant)).toNat ≤ 15 then
        some (.head (be16 (byte1 (budget / 256)) (byte1 budget))
          (if (byte1 (optStation plant)).toNat = 0 then none else some (byte1 (optStation plant)).toNat))
      else none := rfl
    rw [he, be16_byte1 (by omega), optStation_toNat hp, ofOptStation hp]
    simp [hb, optStation_le hp]
  | entry e =>
    simp only [Record.lawful, Bool.and_eq_true, decide_eq_true_eq] at h
    obtain ⟨⟨hs, ha⟩, hg⟩ := h
    have ha' := (within_iff _ _ _).mp ha
    have hs' : (byte1 e.station).toNat = e.station := byte1_toNat (by rw [within_iff] at hs; omega)
    have he : Record.ofBytes (Record.entry e).bytes =
      if within 1 15 (byte1 e.station).toNat && within 100 2000 (be16 (byte1 (e.asked / 256)) (byte1 e.asked)) &&
          be16 (byte1 (e.granted / 256)) (byte1 e.granted) ≤ be16 (byte1 (e.asked / 256)) (byte1 e.asked) then
        some (.entry { station := (byte1 e.station).toNat, asked := be16 (byte1 (e.asked / 256)) (byte1 e.asked)
                       granted := be16 (byte1 (e.granted / 256)) (byte1 e.granted) })
      else none := rfl
    rw [he, hs', be16_byte1 (by omega), be16_byte1 (by omega)]
    simp [hs, ha, hg]
  | slab slot x =>
    simp only [Record.lawful, Bool.and_eq_true, decide_eq_true_eq] at h
    have he : Record.ofBytes (Record.slab slot x).bytes =
      if (byte1 slot).toNat ≤ 159 then (Slab.ofBody x.body).map (.slab (byte1 slot).toNat) else none := rfl
    rw [he, byte1_toNat (by omega), if_pos h.1, Slab.ofBody_body h.2]
    rfl
  | job slot x =>
    simp only [Record.lawful, Bool.and_eq_true, decide_eq_true_eq] at h
    have he : Record.ofBytes (Record.job slot x).bytes =
      if (byte1 slot).toNat ≤ 47 then (Job.ofBody x.body).map (.job (byte1 slot).toNat) else none := rfl
    rw [he, byte1_toNat (by omega), if_pos h.1, Job.ofBody_body h.2]
    rfl
  | fin members entries slabs jobs =>
    simp only [Record.lawful, Bool.and_eq_true, decide_eq_true_eq] at h
    obtain ⟨⟨⟨hm, he⟩, hs⟩, hj⟩ := h
    have hd : Record.ofBytes (Record.fin members entries slabs jobs).bytes =
      if (byte1 members).toNat ≤ 15 && (byte1 entries).toNat ≤ 15 && (byte1 slabs).toNat ≤ 160 &&
          (byte1 jobs).toNat ≤ 48 then
        some (.fin (byte1 members).toNat (byte1 entries).toNat (byte1 slabs).toNat (byte1 jobs).toNat)
      else none := rfl
    rw [hd, byte1_toNat (by omega), byte1_toNat (by omega), byte1_toNat (by omega), byte1_toNat (by omega)]
    simp [hm, he, hs, hj]

/-! ## SNAP payloads (R198) -/

theorem snapSeq_snapPayload {seq : Nat} (h : seq ≤ 239) (r : Record) : snapSeq (snapPayload seq r) = some seq :=
  congrArg some (be16_byte1 (by omega))

theorem snapRecord_snapPayload {seq : Nat} {r : Record} (h : seq ≤ 239) (hr : r.lawful = true) :
    snapRecord (snapPayload seq r) = some r := by
  unfold snapRecord
  rw [snapSeq_snapPayload h r]
  exact (if_pos h).trans (Record.ofBytes_bytes hr)

end Sys2Proof.Machine

/-! SNAP off the line (R11, R31, R37, R39 to R45): what a peer's frame does at the line controller and the presence unit,
what it leaves alone, and what a SNAP makes of the replica. -/

namespace Sys2Proof.Machine

/-! ## A peer's frame -/

/-- A peer's frame is taken by its head and then by its kind (R10, R12, R19, R57). -/
theorem Station.takeFrame_peer {f : Taken} {s : State} (hs : f.sender ≠ s.dev.blk.pres.station)
    (hr : s.dev.blk.host.rejoinPending = false) :
    s.dev.takeFrame f = Station.takeKind false f (s.headed f.sender).dev := by
  have hown : s.dev.blk.isOwn f = false := by simp [Blocks.isOwn, hs]
  have hcomplete : s.dev.completeFor f = s.dev := by
    unfold Station.completeFor
    split
    · exact if_neg (fun h => hs h.1)
    · rfl
  have hhead : s.dev.headTaken f = (s.headed f.sender).dev := by
    unfold Station.headTaken
    rw [hcomplete]
    dsimp only
    rw [if_neg (by simp [hown])]
    unfold Blocks.peerHead
    dsimp only
    rw [if_neg (show ¬ f.sender = (s.dev.blk.onLine Line.frameTaken).pres.station from hs)]
    have he : (s.dev.blk.onLine Line.frameTaken).line.emitting = s.dev.blk.line.emitting := rfl
    rw [he]
    cases hem : s.dev.blk.line.emitting with
    | none => simp [State.headed, Blocks.hear, hem, Blocks.withdraw, Blocks.onPres, Blocks.onLine, Line.frameTaken]
    | some e => simp [State.headed, Blocks.hear, hem, Blocks.withdraw, Blocks.onPres, Blocks.onLine, Line.frameTaken]
  have hkeep := (Tells.takeKind false f (s.headed f.sender).dev).rejoin
  have hpend : (Station.takeKind false f (s.headed f.sender).dev).blk.host.rejoinPending = false := by
    rw [← Bool.not_eq_true]
    intro hp
    have := hkeep hp
    rw [show (s.headed f.sender).dev.blk.host = s.dev.blk.host from rfl, hr] at this
    exact absurd this (by decide)
  have htell : ∀ b : Blocks, Blocks.tellDuplicate false f (s.dev.blk.onLine Line.frameTaken) b = b := by
    intro b
    refine if_neg ?_
    simp [hs]
  rw [Station.takeFrame_eq, hcomplete, hhead, hown]
  dsimp only
  rw [htell]
  unfold Station.settleRejoin
  rw [if_neg (by simp [hpend])]

/-- What no taken frame changes stands where its kind's moves are news and leave what `Moves` names (R28). -/
theorem keptByFrames_of {s t : State} {n : Nat} (hp : t.pending = s.pending)
    (k : Tells (s.headed n).dev.blk t.dev.blk) (m : Moves true (s.headed n).dev.blk t.dev.blk) : KeptByFrames s t := by
  have w : Line.SameWire _ (s.headed n).dev.blk.line := Line.withdraw_sameWire _ _ _ _
  have wt := w.trans k.wire
  exact
    { pending := hp
      clock := ⟨k.now, k.draws⟩
      pins := ⟨k.selLow, k.stop⟩
      straps := ⟨k.station, k.role, k.rate⟩
      line := ⟨wt.rx, wt.idle, wt.inBreak, wt.halting, wt.restT, wt.lastDiscard, wt.badStop⟩
      port := ⟨k.exchange, k.reply, k.cursor, k.planPart⟩
      readings := ⟨k.meas.sampleT, k.meas.scan, k.meas.ma, k.meas.mb, k.meas.maHist, k.meas.mbHist, k.meas.missed,
        k.meas.windowT, k.meas.pulses, k.meas.window⟩
      levels := ⟨m.band, m.turbid, m.correction, m.published⟩
      counts := m.enc
      clocks := m.clockT }

/-! ## What a SNAP makes of the replica -/

/-- The shop state that a SNAP's result leaves (R31, R39, R40, R44). -/
def SnapResult.shop (sh : Shop) : SnapResult → Shop
  | .ignored | .restartAsk => sh
  | .begun x | .fed x | .abandoned x | .completed x | .rebuilt x => x

theorem Station.takeSnapHere_shop (f : Taken) (d : Station) :
    (d.takeSnapHere f).shop = (d.shop.onSnap f.sender f.gen f.payload).shop d.shop := by
  unfold Station.takeSnapHere
  dsimp only
  split
  all_goals (next h => rw [h]; rfl)

theorem Station.takeSnap_shop (f : Taken) (d : Station) :
    (d.takeSnap f).shop = (d.shop.onSnap f.sender f.gen f.payload).shop d.shop := by
  unfold Station.takeSnap
  dsimp only
  split
  · next hc =>
    have hs : d.shop.state = .current := (Shop.current_iff _).mp hc
    simp [Shop.onSnap, hs, SnapResult.shop]
  · exact Station.takeSnapHere_shop f _

theorem Moves.takeSnap (f : Taken) (d : Station) : Moves true d.blk.snapHeardNow (d.takeSnap f).blk := by
  have h := (Moves.refl true d.blk.snapHeardNow).rivalSnap f.sender f.target
  unfold Station.takeSnap
  dsimp only
  split
  · exact h
  · exact h.trans (Moves.takeSnapHere f { d with blk := (d.blk.snapHeardNow).rivalSnap f.sender f.target })

/-! ## A SNAP as a command -/

/-- The frame of a SNAP off the line (R4). -/
def snapTaken (sender target : BitVec 4) (gen : Word16) (p : List Byte) : Taken :=
  { kind := .snap, sender := sender.toNat, target := target.toNat, gen := gen, payload := p }

theorem exec_snap {s : State} {sender target : BitVec 4} {gen : Word16} {p : List Byte} (hh : s.hears sender p)
    (ht : target ≠ 0) :
    exec (.snap sender target gen p) s = .next
      { s with
        dev :=
          if target.toNat = s.dev.blk.pres.station then s.dev.takeFrame (snapTaken sender target gen p)
          else
            { s.dev with
              blk := ((s.dev.blk.startBit sender.toNat).onLine (fun l => { l with rx := .skip })).seenHead
                sender.toNat target.toNat } } := by
  obtain ⟨hm, h0, hp, _⟩ := hh
  have range : ∀ x : BitVec 4, x ≠ 0 → within 1 15 x.toNat = true := by
    intro x hx
    have h1 : x.toNat ≠ 0 := fun e => hx (BitVec.eq_of_toNat_eq e)
    have := x.isLt
    exact (within_iff _ _ _).mpr ⟨by omega, by omega⟩
  have hok : (snapTaken sender target gen p).ok = true :=
    Taken.ok_of_sendable (f := { kind := .snap, target := target.toNat, payload := p }) ⟨range sender h0, hp, range target ht⟩ gen
  have harr : s.dev.frameArrives (snapTaken sender target gen p) =
      if target.toNat = s.dev.blk.pres.station then s.dev.takeFrame (snapTaken sender target gen p)
      else
        { s.dev with
          blk := ((s.dev.blk.startBit sender.toNat).onLine (fun l => { l with rx := .skip })).seenHead
            sender.toNat target.toNat } := by
    unfold Station.frameArrives
    rw [if_pos (Blocks.onAir_of hm), if_pos hok]
    by_cases he : target.toNat = s.dev.blk.pres.station
    · rw [if_pos he, if_neg (fun h => h.2 he)]
    · rw [if_neg he, if_pos ⟨rfl, he⟩]
      rfl
  exact congrArg (fun d => Host.Outcome.next { s with dev := d }) harr

/-- A SNAP of a peer to this station leaves the shop state that its result says, and is heard (R31). -/
theorem exec_snap_goes {s : State} {sender target : BitVec 4} {gen : Word16} {p : List Byte} {sh : Shop}
    (hh : s.hears sender p) (ht : target ≠ 0) (hs : sender.toNat ≠ s.dev.blk.pres.station)
    (htgt : target.toNat = s.dev.blk.pres.station)
    (hsh : (s.dev.shop.onSnap sender.toNat gen p).shop s.dev.shop = sh) :
    Gives (exec (.snap sender target gen p) s) (fun t =>
      t.dev.shop = sh ∧ t.dev.blk.asking.snapHeard = some s.dev.blk.now ∧ KeptByFrames s t) := by
  have hpeer : s.dev.takeFrame (snapTaken sender target gen p) =
      (s.headed sender.toNat).dev.takeSnap (snapTaken sender target gen p) :=
    Station.takeFrame_peer hs hh.2.2.2
  rw [exec_snap hh ht, if_pos htgt, hpeer]
  have k := Tells.takeSnap (snapTaken sender target gen p) (s.headed sender.toNat).dev
  have m := Moves.takeSnap (snapTaken sender target gen p) (s.headed sender.toNat).dev
  refine ⟨_, rfl, ?_, ?_, keptByFrames_of rfl k ((Moves.refl true _).snapHeardNow.trans m)⟩
  · exact (Station.takeSnap_shop _ _).trans hsh
  · exact (m.snapNow rfl).trans (congrArg some k.now)

/-- A skipped SNAP of a peer reports its head (R11): its sender is heard, a SNAP has been heard, and a lower server keeps
its asker (R37). -/
theorem seenHead_peer {b : Blocks} {sender target : Nat} (h : sender ≠ b.pres.station) :
    (b.seenHead sender target).asking.snapHeard = some b.now ∧
      (b.seenHead sender target).pres.heard = Slots.set sender b.now b.pres.heard ∧
      ∀ x, b.asking.stream = some x →
        (b.seenHead sender target).asking.stream =
          if x.asker = target ∧ sender < b.pres.station then none else some x := by
  have hstream : (b.hear sender).snapHeardNow.asking.stream = b.asking.stream := rfl
  unfold Blocks.seenHead
  rw [if_neg h]
  unfold Blocks.rivalSnap
  rw [hstream]
  cases hx : b.asking.stream with
  | none => exact ⟨rfl, rfl, fun x hx => absurd hx (by simp)⟩
  | some y =>
    have hstation : (b.hear sender).snapHeardNow.pres.station = b.pres.station := rfl
    dsimp only
    rw [hstation]
    by_cases hc : y.asker = target ∧ sender < b.pres.station
    · rw [if_pos hc]
      unfold Blocks.dropStream
      rw [hstream, hx]
      refine ⟨rfl, rfl, fun x hxy => ?_⟩
      cases hxy
      exact (if_pos hc).symm
    · rw [if_neg hc]
      refine ⟨rfl, rfl, fun x hxy => ?_⟩
      cases hxy
      rw [if_neg hc]
      exact hx

/-! ## The build (R39, R40, R44) -/

/-- A record is END, which carries the four counts (R198). -/
def Record.IsEnd (r : Record) : Prop := ∃ a b c d, r = .fin a b c d

theorem Shop.feed_of_not_end {rec : Record} (h : ¬ rec.IsEnd) (x : Build) (sh : Shop) :
    sh.feed rec x = .fed { sh with rep := sh.rep.put rec, build := some (x.advance rec) } := by
  cases rec with
  | fin a b c d => exact absurd ⟨a, b, c, d, rfl⟩ h
  | member | head | entry | slab | job => rfl

/-- END's counts are those of the records that have slots (R44). -/
def Replica.HasCounts (r : Replica) (members entries slabs jobs : Nat) : Prop :=
  r.members.length = members ∧ r.ledger.entries.length = entries ∧ r.slabs.length = slabs ∧ r.jobs.length = jobs

theorem Shop.feed_fin_of_counts {a b c d : Nat} {sh : Shop} (h : sh.rep.HasCounts a b c d) (x : Build) :
    sh.feed (.fin a b c d) x = .completed
      { state := .current, gen := x.expGen, rep := { sh.rep with looseSlabs := [], looseJobs := [] }, build := none } :=
  if_pos h

theorem Shop.feed_fin_of_not_counts {a b c d : Nat} {sh : Shop} (h : ¬ sh.rep.HasCounts a b c d) (x : Build) :
    sh.feed (.fin a b c d) x = .abandoned sh.abandoned :=
  if_neg h

/-- A build that has just begun, before its first record (R39). -/
def Build.fresh (server : Nat) (gen : Word16) (aside : Replica) (st : ReplicaState) (asideGen : Word16) : Build :=
  { server := server, expGen := gen, expSeq := 0, reached := 0, slabMark := none, jobMark := none, aside := aside
    asideState := st, asideGen := asideGen }

theorem Shop.begin_of_not_end {rec : Record} (h : ¬ rec.IsEnd) (sender : Nat) (gen : Word16) (sh : Shop) :
    sh.begin_ sender gen rec = .begun
      { state := .building, gen := sh.gen, rep := Replica.blank.put rec
        build := some ((Build.fresh sender gen sh.rep sh.state sh.gen).advance rec) } := by
  unfold Shop.begin_
  dsimp only
  rw [Shop.feed_of_not_end h]
  rfl

/-- END as a first SNAP: an empty replica at its GEN, or none of it (R44, R45). -/
theorem Shop.begin_of_end (a b c d sender : Nat) (gen : Word16) (sh : Shop) :
    (sh.begin_ sender gen (.fin a b c d)) =
      if a = 0 ∧ b = 0 ∧ c = 0 ∧ d = 0 then
        .completed { state := .current, gen := gen, rep := Replica.blank, build := none }
      else .abandoned { state := sh.state, gen := sh.gen, rep := sh.rep, build := none } := by
  have hcounts : Replica.blank.HasCounts a b c d ↔ a = 0 ∧ b = 0 ∧ c = 0 ∧ d = 0 := by
    simp [Replica.HasCounts, Replica.blank, eq_comm]
  unfold Shop.begin_
  dsimp only
  by_cases h : a = 0 ∧ b = 0 ∧ c = 0 ∧ d = 0
  · rw [if_pos h, Shop.feed_fin_of_counts (hcounts.mpr h)]
    rfl
  · rw [if_neg h, Shop.feed_fin_of_not_counts (fun hc => h (hcounts.mp hc))]
    rfl

end Sys2Proof.Machine

/-! SNAP off the line (R31, R39 to R45): what each replica state makes of it, and O35. -/

namespace Sys2Proof.Machine

/-! ## Outside a build -/

theorem Shop.onSnap_of_current {sh : Shop} (h : sh.state = .current) (n : Nat) (gen : Word16) (p : List Byte) :
    sh.onSnap n gen p = .ignored := by
  unfold Shop.onSnap
  rw [h]

/-- A SNAP past the first asks again (R40). -/
theorem Shop.onSnap_late {sh : Shop} {p : List Byte} {seq : Nat} (h : sh.state = .empty ∨ sh.state = .stale)
    (hp : snapSeq p = some seq) (hseq : 0 < seq) (n : Nat) (gen : Word16) : sh.onSnap n gen p = .restartAsk := by
  obtain ⟨k, rfl⟩ : ∃ k, seq = k + 1 := ⟨seq - 1, by omega⟩
  unfold Shop.onSnap
  rcases h with h | h <;> simp [h, hp]

/-- A first SNAP begins a build (R39). -/
theorem Shop.onSnap_first {sh : Shop} {p : List Byte} {rec : Record} (h : sh.state = .empty ∨ sh.state = .stale)
    (hp : snapSeq p = some 0) (hr : snapRecord p = some rec) (n : Nat) (gen : Word16) :
    sh.onSnap n gen p = sh.begin_ n gen rec := by
  unfold Shop.onSnap
  rcases h with h | h <;> simp [h, hp, hr]

/-! ## In a build -/

section Building

variable {sh : Shop} {x : Build} {p : List Byte} {seq : Nat} {rec : Record} {gen : Word16}

/-- The server's next SNAP, its section no earlier (R40, R198). -/
theorem Shop.onSnap_inPlace (h : sh.state = .building) (hb : sh.build = some x) (hp : snapSeq p = some seq)
    (hr : snapRecord p = some rec) (hin : gen = x.expGen ∧ seq = x.expSeq ∧ x.reached ≤ rec.section) :
    sh.onSnap x.server gen p = sh.feed rec x := by
  obtain ⟨hgen, hseq, hsec⟩ := hin
  unfold Shop.onSnap
  rw [h, hb, hr, hp]
  dsimp only
  rw [if_pos rfl, if_pos ⟨hgen, congrArg some hseq, hsec⟩]

theorem Shop.onSnap_outOfPlace (h : sh.state = .building) (hb : sh.build = some x) (hp : snapSeq p = some seq)
    (hr : snapRecord p = some rec) (hin : ¬ (gen = x.expGen ∧ seq = x.expSeq ∧ x.reached ≤ rec.section)) :
    sh.onSnap x.server gen p = .abandoned sh.abandoned := by
  unfold Shop.onSnap
  rw [h, hb, hr, hp]
  dsimp only
  rw [if_pos rfl, if_neg (fun ⟨hgen, hseq, hsec⟩ => hin ⟨hgen, Option.some.inj hseq, hsec⟩)]

/-- A lower server's first SNAP begins anew from what was set aside (R40). -/
theorem Shop.onSnap_lower_shop {n : Nat} (h : sh.state = .building) (hb : sh.build = some x) (hp : snapSeq p = some 0)
    (hr : snapRecord p = some rec) (hn : n ≠ x.server) (hlow : n < x.server) :
    (sh.onSnap n gen p).shop sh = (sh.abandoned.begin_ n gen rec).shop sh := by
  unfold Shop.onSnap
  rw [h, hb, hr, hp]
  dsimp only
  rw [if_neg hn, if_pos ⟨rfl, hlow⟩]
  split
  · next hx => rw [hx]; rfl
  · rfl

theorem Shop.onSnap_other {n : Nat} (h : sh.state = .building) (hb : sh.build = some x) (hp : snapSeq p = some seq)
    (hn : n ≠ x.server) (hother : 0 < seq ∨ x.server < n) : sh.onSnap n gen p = .ignored := by
  unfold Shop.onSnap
  rw [h, hb, hp]
  dsimp only
  rw [if_neg hn, if_neg]
  intro ⟨hseq, hlow⟩
  have : seq = 0 := Option.some.inj hseq
  omega

end Building

theorem Shop.abandoned_of {sh : Shop} {x : Build} (h : sh.build = some x) :
    sh.abandoned = { state := x.asideState, gen := x.asideGen, rep := x.aside, build := none } := by
  unfold Shop.abandoned
  rw [h]

/-! ## O35 -/

/-- Settles O35: each replica state's answer to a SNAP (`Shop.onSnap_first` and the lemmas beside it) is the shop that the
command leaves (`exec_snap_goes`); a SNAP directed elsewhere is only seen (`seenHead_peer`). -/
theorem snapFrameBuildsTheReplica : Obligations.SnapFrameBuildsTheReplica := by
  intro sender target gen seq rec s p hh ht hs hseq hlaw o sh goes isEnd slabMark jobMark first firstEnd
  have hp : snapSeq p = some seq := snapSeq_snapPayload hseq rec
  have hr : snapRecord p = some rec := snapRecord_snapPayload hseq hlaw
  have mark : ∀ x : Build, x.advance rec =
      { x with
        expSeq := x.expSeq + 1, reached := rec.section, slabMark := slabMark x.slabMark, jobMark := jobMark x.jobMark } := by
    intro x
    cases rec <;> rfl
  have hbegin : ∀ base old : Shop, ¬ isEnd →
      (base.begin_ sender.toNat gen rec).shop old = first base.rep base.state base.gen := by
    intro base old he
    rw [Shop.begin_of_not_end he, mark]
    rfl
  have hbeginEnd : ∀ (base old : Shop) (a b c d : Nat), rec = .fin a b c d →
      (base.begin_ sender.toNat gen rec).shop old = firstEnd base.rep base.state base.gen a b c d := by
    intro base old a b c d he
    rw [he, Shop.begin_of_end]
    exact apply_ite (SnapResult.shop old) _ _ _
  refine ⟨fun htgt => ?_, fun htgt => ?_⟩
  · have ho : o = _ := exec_snap hh ht
    rw [if_neg htgt] at ho
    obtain ⟨hsnap, hheard, hstream⟩ :=
      seenHead_peer (b := (s.dev.blk.startBit sender.toNat).onLine (fun l => { l with rx := .skip })) (target := target.toNat) hs
    have k := (Tells.refl ((s.dev.blk.startBit sender.toNat).onLine (fun l => { l with rx := .skip }))).seenHead
      sender.toNat target.toNat
    exact ⟨_, ho, rfl, k.wire.rx, hsnap, hheard, hstream⟩
  · have go : ∀ sh', (sh.onSnap sender.toNat gen p).shop sh = sh' → goes sh' :=
      fun sh' => exec_snap_goes hh ht hs htgt
    refine ⟨fun hc => ?_, fun hout hpos => ?_, fun hout h0 => ?_, fun x hst hb => ?_⟩
    · exact go _ (by rw [Shop.onSnap_of_current hc]; rfl)
    · exact go _ (by rw [Shop.onSnap_late hout hp hpos]; rfl)
    · have hfirst := Shop.onSnap_first hout (h0 ▸ hp) hr sender.toNat gen
      exact ⟨fun he => go _ (hfirst ▸ hbegin sh sh he), fun a b c d he => go _ (hfirst ▸ hbeginEnd sh sh a b c d he)⟩
    · have hback := Shop.abandoned_of hb
      refine ⟨fun hn hin he => ?_, fun hn hin a b c d he => ?_, fun hn hin => ?_, fun hn h0 hlow => ?_,
        fun hn hother => ?_⟩
      · refine go _ ?_
        rw [hn, Shop.onSnap_inPlace hst hb hp hr hin, Shop.feed_of_not_end he, mark]
        rfl
      · refine go _ ?_
        rw [hn, Shop.onSnap_inPlace hst hb hp hr hin, he]
        by_cases hc : sh.rep.HasCounts a b c d
        · rw [Shop.feed_fin_of_counts hc]
          exact (if_pos hc).symm
        · rw [Shop.feed_fin_of_not_counts hc, hback]
          exact (if_neg hc).symm
      · refine go _ ?_
        rw [hn, Shop.onSnap_outOfPlace hst hb hp hr hin, hback]
        rfl
      · have hlower := Shop.onSnap_lower_shop (gen := gen) hst hb (h0 ▸ hp) hr hn hlow
        rw [hback] at hlower
        exact ⟨fun he => go _ (hlower.trans (hbegin _ sh he)), fun a b c d he => go _ (hlower.trans (hbeginEnd _ sh a b c d he))⟩
      · exact go _ (by rw [Shop.onSnap_other hst hb hp hn hother]; rfl)

end Sys2Proof.Machine

/-! The end of an attempt (R17, R18, R20): the frame back in its place with its failure counted, and what the producers
whose withdrawals were refused do then. -/

namespace Sys2Proof.Machine

/-! ## The attempt that failed -/

/-- The blocks once an attempt has failed and been counted, before its producer is told (R17, R18). -/
def Blocks.attemptFailed (a : Attempt) (b : Blocks) : Blocks :=
  if a = .lost then b.onLine Line.backToWaiting else (b.onLine Line.backToWaiting).sendFailed a

theorem Blocks.attemptEnds_none {b : Blocks} (h : b.line.emitting = none) (a : Attempt) (sh : Shop) :
    b.attemptEnds a sh = b := by
  unfold Blocks.attemptEnds
  rw [h]

theorem Blocks.attemptEnds_some {b : Blocks} {e : OutEntry} (h : b.line.emitting = some e) (a : Attempt) (sh : Shop) :
    b.attemptEnds a sh = (b.attemptFailed a).afterAttempt a e sh := by
  unfold Blocks.attemptEnds
  rw [h]
  rfl

theorem Line.backToWaiting_emissions (l : Line) : l.backToWaiting.emissions = 0 := by
  simp [Line.emissions, Line.backToWaiting, List.filter_map, Function.comp_def]

/-- The failed attempt moves the line's queue state, failure count and rest, and posts at the eighth failure: nothing
else. -/
structure Blocks.Failed (b c : Blocks) : Prop where
  rest : c = { b with line := c.line, host := c.host }
  queue : c.line.queue = b.line.backToWaiting.queue
  waitList : c.line.waitList = b.line.waitList
  backlog : c.line.backlog = b.line.backlog
  rejoin : c.host.rejoinPending = b.host.rejoinPending
  rx : c.line.rx = b.line.rx
  idle : c.line.idle = b.line.idle
  inBreak : c.line.inBreak = b.line.inBreak
  txDone : c.line.txDone = b.line.txDone
  yielding : c.line.yielding = b.line.yielding
  lastDiscard : c.line.lastDiscard = b.line.lastDiscard
  exchange : c.host.exchange = b.host.exchange
  reply : c.host.reply = b.host.reply
  cursor : c.host.cursor = b.host.cursor

namespace Blocks.Failed

variable {b c : Blocks}

theorem emissions (h : b.Failed c) : c.line.emissions = 0 := by
  rw [Line.emissions, h.queue]
  exact b.line.backToWaiting_emissions

theorem plant (h : b.Failed c) : c.plant = b.plant := by rw [h.rest]

theorem pres (h : b.Failed c) : c.pres = b.pres := by rw [h.rest]

theorem saw (h : b.Failed c) : c.saw = b.saw := by rw [h.rest]

/-- The frames that are held stand as they stood (R17). -/
theorem frames (h : b.Failed c) : c.line.frames = b.line.frames := by
  simp [Line.frames, h.queue, h.waitList, h.backlog, Line.backToWaiting, Function.comp_def]

end Blocks.Failed

/-- A notice touches the host port alone (R191). -/
theorem Blocks.post_eq (n : Notice) (b : Blocks) : b.post n = { b with host := (b.post n).host } := by
  unfold Blocks.post
  repeat' split
  all_goals rfl

theorem Blocks.attemptFailed_failed (a : Attempt) (b : Blocks) : b.Failed (b.attemptFailed a) := by
  unfold Blocks.attemptFailed Blocks.sendFailed
  split
  · exact ⟨rfl, rfl, rfl, rfl, rfl, rfl, rfl, rfl, rfl, rfl, rfl, rfl, rfl, rfl⟩
  · split
    · exact ⟨rfl, rfl, rfl, rfl, rfl, rfl, rfl, rfl, rfl, rfl, rfl, rfl, rfl, rfl⟩
    · refine ⟨?_, ?_, ?_, ?_, Blocks.post_host_rejoinPending _ _, ?_, ?_, ?_, ?_, ?_, ?_,
        Blocks.post_host_exchange _ _, Blocks.post_host_reply _ _, Blocks.post_host_cursor _ _⟩
      · rw [Blocks.post_line]
        exact Blocks.post_eq _ _
      all_goals rw [Blocks.post_line]; rfl

/-! ## What the producers do then -/

/-- The queue, the plant unit and the table unit's stream alone have moved, and no entry has started. -/
structure Blocks.QueueMoved (b c : Blocks) : Prop where
  rest : c = { b with line := c.line, plant := c.plant, asking := c.asking }
  wire : Line.SameWire b.line c.line
  emissions : c.line.emissions = b.line.emissions

namespace Blocks.QueueMoved

variable {a b : Blocks}

theorem refl (a : Blocks) : a.QueueMoved a := ⟨rfl, Line.SameWire.refl _, rfl⟩

theorem trans {c : Blocks} (h : a.QueueMoved b) (k : b.QueueMoved c) : a.QueueMoved c := by
  refine ⟨?_, h.wire.trans k.wire, k.emissions.trans h.emissions⟩
  rw [k.rest, h.rest]

theorem onPlant (h : a.QueueMoved b) (f : PlantUnit → PlantUnit) : a.QueueMoved (b.onPlant f) :=
  h.trans ⟨rfl, Line.SameWire.refl _, rfl⟩

theorem onAsking (h : a.QueueMoved b) (f : Asking → Asking) : a.QueueMoved (b.onAsking f) :=
  h.trans ⟨rfl, Line.SameWire.refl _, rfl⟩

theorem withdrawn (h : a.QueueMoved b) (p : Producer) (sel : Frame → Bool) (again : Bool) :
    a.QueueMoved { b with line := b.line.withdraw p sel again } :=
  h.trans ⟨rfl, Line.withdraw_sameWire _ _ _ _, Line.emissions_withdraw _ _ _ _⟩

theorem offer (h : a.QueueMoved b) (p : Producer) (f : Frame) : a.QueueMoved (b.offer p f) := by
  unfold Blocks.offer
  split
  · exact h.trans ⟨rfl, Line.offer_sameWire _ _ _, Line.emissions_offer _ _ _⟩
  · exact h

theorem offerBudget (h : a.QueueMoved b) (v : Nat) : a.QueueMoved (b.offerBudget v) := (h.onPlant _).offer _ _

theorem plantCompare (h : a.QueueMoved b) (sh : Shop) : a.QueueMoved (b.plantCompare sh) := by
  have hw := h.withdrawn .plant isBudget true
  unfold Blocks.plantCompare Blocks.comparePublished
  dsimp only
  repeat' split
  · exact h
  · exact h
  · exact hw.offerBudget _
  · exact hw
  · exact h
  · exact (h.offerBudget _).onPlant _
  · exact h
  · exact h

theorem offerSnap (h : a.QueueMoved b) (sh : Shop) : a.QueueMoved (b.offerSnap sh) := by
  unfold Blocks.offerSnap
  split
  · exact h
  · exact (h.onAsking _).offer _ _

theorem refreshStream (h : a.QueueMoved b) (sh : Shop) : a.QueueMoved (b.refreshStream sh) := by
  unfold Blocks.refreshStream
  split
  · exact (h.withdrawn _ _ _).offerSnap sh
  · exact h

theorem ledgerReport (h : a.QueueMoved b) (sh : Shop) : a.QueueMoved (b.ledgerReport sh) := by
  unfold Blocks.ledgerReport
  split
  · exact (h.onPlant _).plantCompare sh
  · exact h

/-- What follows a failed attempt (R34, R46, R114, R115). -/
theorem afterAttempt (h : a.QueueMoved b) (x : Attempt) (e : OutEntry) (sh : Shop) :
    a.QueueMoved (b.afterAttempt x e sh) := by
  unfold Blocks.afterAttempt
  repeat' split
  · exact h.refreshStream sh
  · exact h
  · exact h.withdrawn _ _ _
  · exact h
  · exact (h.withdrawn _ _ _).plantCompare sh
  · exact h.plantCompare sh
  all_goals exact h

theorem saw (h : a.QueueMoved b) : b.saw = a.saw := by rw [h.rest]

theorem pres (h : a.QueueMoved b) : b.pres = a.pres := by rw [h.rest]

theorem host (h : a.QueueMoved b) : b.host = a.host := by rw [h.rest]

end Blocks.QueueMoved

/-- With no frame in emission any more an attempt has ended. -/
theorem Blocks.attemptEnds_emissions (a : Attempt) (sh : Shop) (b : Blocks) :
    (b.attemptEnds a sh).line.emissions = 0 := by
  cases he : b.line.emitting with
  | none => rw [Blocks.attemptEnds_none he]; exact (Line.emissions_eq_zero_iff _).mpr he
  | some e =>
    rw [Blocks.attemptEnds_some he, ((Blocks.QueueMoved.refl _).afterAttempt a e sh).emissions]
    exact (b.attemptFailed_failed a).emissions

end Sys2Proof.Machine

/-! The frame of a failed attempt whose withdrawal was refused (R46, R114, R115): the BUDGET that is withdrawn, and the
one that is replaced. -/

namespace Sys2Proof.Machine

/-! ## Which frames are held -/

theorem Line.mem_frames {w : Waiter} {l : Line} :
    w ∈ l.frames ↔
      (∃ e ∈ l.queue, { producer := e.producer, frame := e.frame } = w) ∨ w ∈ l.waitList ∨ w ∈ l.backlog := by
  simp [Line.frames]

theorem Line.mem_frames_of_queue {e : OutEntry} {l : Line} (h : e ∈ l.queue) :
    { producer := e.producer, frame := e.frame } ∈ l.frames := Line.mem_frames.mpr (Or.inl ⟨e, h, rfl⟩)

/-- A frame held after an offer was held before it, or is the one offered (R14). -/
theorem Line.mem_frames_offer {p : Producer} {f : Frame} {l : Line} {w : Waiter} (h : w ∈ (l.offer p f).frames) :
    w ∈ l.frames ∨ w = { producer := p, frame := f } := by
  rcases Line.offer_cases p f l with ⟨_, e⟩ | ⟨_, _, e⟩ | ⟨_, _, _, e⟩ | ⟨_, _, _, e⟩ <;> rw [e] at h
  · simp only [Line.mem_frames] at h ⊢
    rcases h with ⟨x, hx, hw⟩ | h
    · rcases List.mem_cons.mp ((insertEntry_perm _ l.queue).mem_iff.mp hx) with rfl | hx
      · exact Or.inr hw.symm
      · exact Or.inl (Or.inl ⟨x, hx, hw⟩)
    · exact Or.inl (Or.inr h)
  · exact Or.inl h
  · simp only [Line.mem_frames, List.mem_append, List.mem_singleton] at h ⊢
    exact h.elim (fun x => Or.inl (Or.inl x)) (fun x => x.elim (fun y => Or.inl (Or.inr (Or.inl y)))
      (fun y => y.elim (fun z => Or.inl (Or.inr (Or.inr z))) Or.inr))
  · simp only [Line.mem_frames, List.mem_append, List.mem_singleton] at h ⊢
    exact h.elim (fun x => Or.inl (Or.inl x)) (fun x => x.elim
      (fun y => y.elim (fun z => Or.inl (Or.inr (Or.inl z))) Or.inr) (fun y => Or.inl (Or.inr (Or.inr y))))

/-- A frame that waits is one that is held. -/
theorem Line.exists_frame_of_heldWaiting {p : Producer} {sel : Frame → Bool} {l : Line}
    (h : l.heldWaiting p sel = true) : ∃ w ∈ l.frames, w.isOf p sel = true := by
  simp only [Line.heldWaiting, Line.waits, Bool.or_eq_true, List.any_eq_true, Bool.and_eq_true] at h
  rcases h with ⟨e, he, hs, _⟩ | ⟨w, hw, hs⟩ | ⟨w, hw, hs⟩
  · exact ⟨_, Line.mem_frames_of_queue he, hs⟩
  · exact ⟨w, Line.mem_frames.mpr (Or.inr (Or.inl hw)), hs⟩
  · exact ⟨w, Line.mem_frames.mpr (Or.inr (Or.inr hw)), hs⟩

/-- After a withdrawal, with nothing in emission, none of the frames it picks is held (R15). -/
theorem Line.withdraw_frames {p : Producer} {sel : Frame → Bool} {again : Bool} {l : Line} (h : l.emissions = 0) :
    ∀ w ∈ (l.withdraw p sel again).frames, w.isOf p sel = false := by
  have hclear := (Line.clear_iff p sel _).mp (Line.withdraw_clear p sel again l)
  have hstill : (l.withdraw p sel again).emissions = 0 := (Line.emissions_withdraw p sel again l).trans h
  have hnone := (Line.emitting_none_iff _).mp ((Line.emissions_eq_zero_iff _).mp hstill)
  intro w hw
  rcases Line.mem_frames.mp hw with ⟨e, he, rfl⟩ | hw | hw
  · rw [← Bool.not_eq_true]
    intro hs
    have hem := hclear.queue e he hs
    rw [hnone e he] at hem
    exact absurd hem (by decide)
  · exact hclear.waitList w hw
  · exact hclear.backlog w hw

/-! ## The BUDGET held (R113) -/

theorem Line.heldBudget_none {l : Line} (h : ∀ w ∈ l.frames, w.isOf .plant isBudget = false) : l.heldBudget = none := by
  have hf : l.frames.find? (fun w => w.producer == .plant && isBudget w.frame) = none :=
    List.find?_eq_none.mpr (fun w hw => Bool.not_eq_true _ ▸ h w hw)
  rw [Line.heldBudget, hf, Option.map_none]

theorem Line.heldBudget_some {l : Line} {f : Frame} (hex : ∃ w ∈ l.frames, w.isOf .plant isBudget = true)
    (hall : ∀ w ∈ l.frames, w.isOf .plant isBudget = true → w.frame = f) : l.heldBudget = some (budgetValue f) := by
  cases hf : l.frames.find? (fun w => w.producer == .plant && isBudget w.frame) with
  | none =>
    obtain ⟨w, hw, hs⟩ := hex
    exact absurd hs (List.find?_eq_none.mp hf w hw)
  | some w =>
    have hs : w.isOf .plant isBudget = true := by simpa [Waiter.isOf] using List.find?_some hf
    have hw := hall w (List.mem_of_find?_eq_some hf) hs
    rw [Line.heldBudget, hf, Option.map_some, hw]

/-- A BUDGET offered where none is held is the one held. -/
theorem Line.heldBudget_offer {l : Line} {f : Frame} (h : ∀ w ∈ l.frames, w.isOf .plant isBudget = false)
    (hf : isBudget f = true) : (l.offer .plant f).heldBudget = some (budgetValue f) := by
  refine Line.heldBudget_some
    (Line.exists_frame_of_heldWaiting (Line.offer_held .plant f l (by decide) isBudget hf)) (fun w hw hs => ?_)
  rcases Line.mem_frames_offer hw with hw | rfl
  · rw [h w hw] at hs
    exact absurd hs (by decide)
  · rfl

theorem budgetValue_mkFrame {v : Nat} (h : v ≤ 8000) : budgetValue (mkFrame .budget (bytes2 v)) = v :=
  be16_byte1 (show v ≤ 65535 by omega)

/-! ## The comparison (R113, R114) -/

theorem Blocks.offerBudget_line (v : Nat) (b : Blocks) :
    (b.offerBudget v).line =
      if b.pres.mem.offers then b.line.offer .plant (mkFrame .budget (bytes2 v)) else b.line :=
  Blocks.offer_line _ _ _

theorem Blocks.offerBudget_plant (v : Nat) (b : Blocks) : (b.offerBudget v).plant = { b.plant with lastSent := v } :=
  Blocks.offer_plant _ _ _

/-- In HALT, with the published value sent and nothing held, the comparison rests. -/
theorem Blocks.plantCompare_rests {b : Blocks} {sh : Shop} {v : Nat} (hp : b.plant.published = some v)
    (hs : b.plant.lastSent = v) (hh : b.line.heldBudget = none) : b.plantCompare sh = b := by
  unfold Blocks.plantCompare Blocks.comparePublished
  rw [hp, hh]
  simp [hs]

/-- A BUDGET held that waits and is not the published value is withdrawn and replaced (R114). -/
theorem Blocks.plantCompare_replaces {b : Blocks} {sh : Shop} {v : Nat} {f : Frame} (hp : b.plants = true)
    (hm : b.pres.mem = .member) (hc : sh.state = .current) (hst : b.plant.standby = false) (hb : b.plant.band ≠ none)
    (hh : b.plant.band ≠ some .halt) (hv : b.plant.published = some v) (hle : v ≤ 8000) (hne : v ≠ budgetValue f)
    (h0 : b.line.emissions = 0) (hw : b.line.heldWaiting .plant isBudget = true)
    (hall : ∀ w ∈ b.line.frames, w.isOf .plant isBudget = true → w.frame = f) :
    (b.plantCompare sh).line.heldBudget = some v ∧ (b.plantCompare sh).plant.lastSent = v := by
  have hheld : b.line.heldBudget = some (budgetValue f) :=
    Line.heldBudget_some (Line.exists_frame_of_heldWaiting hw) hall
  have hmay : b.withdrawBudget.mayPublish sh = true := by
    have hlive : live sh b.withdrawBudget = true := by
      simp [live, Blocks.isMember, Blocks.withdrawBudget, hm, Shop.current, hc]
    have hsome : b.plant.band.isSome = true := Option.isSome_iff_ne_none.mpr hb
    simp only [Blocks.mayPublish, hlive]
    simp [Blocks.withdrawBudget, hst, hsome, hh]
  have hcompare : b.plantCompare sh = b.withdrawBudget.offerBudget v := by
    unfold Blocks.plantCompare Blocks.comparePublished
    rw [if_pos hp, hv, hheld]
    dsimp only
    rw [if_neg (fun h => hne h.symm), hmay]
    simp [Line.withdrawAnswer, hw]
  have hoffers : b.withdrawBudget.pres.mem.offers = true := by
    rw [show b.withdrawBudget.pres.mem = .member from hm]
    rfl
  have hnew : (b.withdrawBudget.line.offer .plant (mkFrame .budget (bytes2 v))).heldBudget = some v :=
    (Line.heldBudget_offer (Line.withdraw_frames h0) rfl).trans (congrArg some (budgetValue_mkFrame hle))
  rw [hcompare, Blocks.offerBudget_line, if_pos hoffers, Blocks.offerBudget_plant]
  exact ⟨hnew, rfl⟩

/-! ## After the attempt -/

theorem Blocks.afterAttempt_of_not_again {b : Blocks} {e : OutEntry} {a : Attempt} (ha : a ≠ .broke)
    (h : e.again = false ∨ (e.frame.kind ≠ .rebase ∧ e.frame.kind ≠ .budget)) (sh : Shop) : b.afterAttempt a e sh = b := by
  unfold Blocks.afterAttempt
  split
  · exact if_neg ha
  · next hk =>
    rcases h with h | h
    · simp [h]
    · exact absurd hk h.1
  · next hk =>
    rcases h with h | h
    · simp [h]
    · exact absurd hk h.2
  all_goals rfl

theorem Blocks.afterAttempt_rebase {b : Blocks} {e : OutEntry} (hg : e.again = true) (hk : e.frame.kind = .rebase)
    (a : Attempt) (sh : Shop) : b.afterAttempt a e sh = if a = .lost then b else b.withdrawRebase := by
  unfold Blocks.afterAttempt
  rw [hk, hg]
  cases a <;> rfl

/-- The refused BUDGET in HALT is withdrawn, and none is held (R115). -/
theorem Blocks.afterAttempt_budget_halt {b : Blocks} {e : OutEntry} (hg : e.again = true) (hk : e.frame.kind = .budget)
    (hb : b.plant.band = some .halt) (hp : b.plant.published = some 0) (hs : b.plant.lastSent = 0)
    (h0 : b.line.emissions = 0) (a : Attempt) (sh : Shop) : (b.afterAttempt a e sh).line.heldBudget = none := by
  have hnone : (b.withdraw .plant isBudget).line.heldBudget = none := Line.heldBudget_none (Line.withdraw_frames h0)
  have hafter : b.afterAttempt a e sh = (b.withdraw .plant isBudget).plantCompare sh := by
    unfold Blocks.afterAttempt
    rw [hk]
    exact if_pos (by simp [hg, hb])
  rw [hafter, Blocks.plantCompare_rests (b := b.withdraw .plant isBudget) (v := 0) hp hs hnone]
  exact hnone

/-- The refused BUDGET outside HALT is compared again (R114). -/
theorem Blocks.afterAttempt_budget {b : Blocks} {e : OutEntry} (hg : e.again = true) (hk : e.frame.kind = .budget)
    (hb : b.plant.band ≠ some .halt) (hp : b.plant.published ≠ some (budgetValue e.frame)) (a : Attempt) (sh : Shop) :
    b.afterAttempt a e sh = b.plantCompare sh := by
  unfold Blocks.afterAttempt
  rw [hk]
  dsimp only
  rw [if_neg (by simp [hb]), if_pos (by simp [hg, hp])]

end Sys2Proof.Machine

/-! REJOIN taking effect when an attempt has ended (R23, R64), and O17. -/

namespace Sys2Proof.Machine

/-! ## A grant of 0 at the sequencer (R149) -/

/-- The line and the presence unit have not moved. -/
structure Blocks.LineStands (b c : Blocks) : Prop where
  line : c.line = b.line
  pres : c.pres = b.pres

namespace Blocks.LineStands

variable {a b : Blocks}

theorem refl (a : Blocks) : a.LineStands a := ⟨rfl, rfl⟩

theorem onSaw (h : a.LineStands b) (f : Saw → Saw) : a.LineStands (b.onSaw f) := ⟨h.line, h.pres⟩

theorem setValve (h : a.LineStands b) (v : Nat) : a.LineStands (b.setValve v) := by
  unfold Blocks.setValve
  dsimp only
  repeat' split
  all_goals exact ⟨h.line, h.pres⟩

theorem valveAtGrant (h : a.LineStands b) : a.LineStands b.valveAtGrant := h.setValve _

theorem bladeOff (h : a.LineStands b) : a.LineStands b.bladeOff := (h.onSaw _).setValve 0

theorem sawEnter (h : a.LineStands b) (st : SawState) : a.LineStands (b.sawEnter st) := by
  unfold Blocks.sawEnter Blocks.reportState
  split
  · exact h.onSaw _
  · exact ⟨h.line, h.pres⟩

theorem enterHeld (h : a.LineStands b) : a.LineStands b.enterHeld := by
  have h1 := ((h.onSaw (fun w => { w with feedOn := false, feedRate := 0, pulsePeriod := 0 })).onSaw
    (fun w => { w with holdT := b.after 30000 })).sawEnter .held
  unfold Blocks.enterHeld
  dsimp only
  split
  · exact h1.valveAtGrant
  · exact h1.bladeOff

end Blocks.LineStands

theorem Blocks.setValve_saw (v : Nat) (b : Blocks) : (b.setValve v).saw = { b.saw with valve := v } := by
  unfold Blocks.setValve
  dsimp only
  repeat' split
  all_goals rfl

theorem Blocks.sawEnter_saw (st : SawState) (b : Blocks) : (b.sawEnter st).saw = { b.saw with st := st } := by
  unfold Blocks.sawEnter Blocks.reportState
  split <;> rfl

theorem needOf_pos (thickness : Nat) : 0 < needOf thickness := by
  unfold needOf
  repeat' split
  all_goals decide

theorem atLeast60_zero {need : Nat} (h : 0 < need) : atLeast60 0 need = false := by
  simp only [atLeast60, decide_eq_false_iff_not]
  omega

theorem atLeast25_zero {need : Nat} (h : 0 < need) : atLeast25 0 need = false := by
  simp only [atLeast25, decide_eq_false_iff_not]
  omega

/-- A saw with a plan that has the need of its thickness needs something (R141). -/
theorem Saw.need_pos {w : Saw} (h : w.planLaw = true) (hst : w.st ≠ .idle) : 0 < w.need := by
  unfold Saw.planLaw at h
  unfold Saw.need
  cases hp : w.plan with
  | none =>
    rw [hp] at h
    exact absurd (by simpa using h) hst
  | some p =>
    rw [hp] at h
    have hn : p.need = needOf p.thickness := by simpa using h
    dsimp only
    rw [hn]
    exact needOf_pos _

/-- WATER_WAIT without water stays there, and nothing is offered (R150). -/
theorem Blocks.enterWaterWait_dry {b : Blocks} (hg : b.saw.grant = 0) (hn : 0 < b.saw.need) (sh : Shop) :
    b.LineStands (b.enterWaterWait sh) := by
  have hk : b.LineStands ((b.feedOff.bladeOff.onSaw (fun w =>
      { w with idleSpinT := none, holdT := if w.started then b.after 30000 else none })).sawEnter .waterWait) :=
    ((((Blocks.LineStands.refl b).onSaw _).bladeOff).onSaw _).sawEnter _
  have hsaw : ∀ c : Blocks, (c.feedOff.bladeOff).saw.grant = c.saw.grant ∧ (c.feedOff.bladeOff).saw.need = c.saw.need := by
    intro c
    unfold Blocks.bladeOff
    rw [Blocks.setValve_saw]
    exact ⟨rfl, rfl⟩
  unfold Blocks.enterWaterWait
  dsimp only
  rw [Blocks.sawEnter_saw, if_neg]
  · exact hk
  · show ¬ atLeast60 (b.feedOff.bladeOff).saw.grant (b.feedOff.bladeOff).saw.need = true
    rw [(hsaw b).1, (hsaw b).2, hg, atLeast60_zero hn]
    decide

/-- A grant of 0 stops what runs and offers nothing (R149, R150, R153). -/
theorem Blocks.grantMoves_dry {b : Blocks} (hg : b.saw.grant = 0) (hlaw : b.saw.planLaw = true) (sh : Shop) :
    b.LineStands (b.grantMoves sh) := by
  have h := Blocks.LineStands.refl b
  have h60 : b.saw.st ≠ .idle → atLeast60 b.saw.grant b.saw.need = false := fun hst => by
    rw [hg]; exact atLeast60_zero (Saw.need_pos hlaw hst)
  have h25 : b.saw.st ≠ .idle → atLeast25 b.saw.grant b.saw.need = false := fun hst => by
    rw [hg]; exact atLeast25_zero (Saw.need_pos hlaw hst)
  unfold Blocks.grantMoves
  cases hst : b.saw.st with
  | idle | loadWait | finishing | faulted => exact h
  | waterWait =>
    dsimp only
    rw [h60 (by simp [hst])]
    exact h
  | spinup =>
    dsimp only
    rw [h60 (by simp [hst])]
    exact Blocks.enterWaterWait_dry hg (Saw.need_pos hlaw (by simp [hst])) sh
  | cutting =>
    dsimp only
    rw [h60 (by simp [hst])]
    exact h.enterHeld
  | held =>
    unfold Blocks.grantInHeld
    dsimp only
    rw [h60 (by simp [hst]), h25 (by simp [hst])]
    exact h.bladeOff
  | indexWait =>
    dsimp only
    split
    · rw [h25 (by simp [hst]), if_neg Bool.false_ne_true]
      exact h.bladeOff.onSaw _
    · exact h

/-- A replica that is not CURRENT grants nothing (R100), and its report offers nothing. -/
theorem Blocks.grantReport_dry {b : Blocks} {sh : Shop} (hc : sh.current = false) (hlaw : b.saw.planLaw = true)
    (before : Nat) : b.LineStands (b.grantReport before sh) := by
  have hgrant : effGrant sh b = 0 := by simp [effGrant, hc]
  have hset : b.LineStands (b.setGrant sh 0) := by
    unfold Blocks.setGrant
    split
    · exact Blocks.LineStands.refl b
    · have h := Blocks.grantMoves_dry (b := b.onSaw (fun w => { w with grant := 0 })) rfl hlaw sh
      exact ⟨h.line, h.pres⟩
  unfold Blocks.grantReport
  rw [hgrant]
  split
  · exact Blocks.LineStands.refl b
  · exact ⟨(Blocks.post_line _ _).trans hset.line, (Blocks.post_pres _ _).trans hset.pres⟩

/-! ## The frames that REJOIN discards (R14, R23) -/

/-- A producer's answer to DISCARDED moves neither the line, nor the presence unit, nor the sequencer. -/
structure Blocks.Told (b c : Blocks) : Prop extends b.LineStands c where
  saw : c.saw = b.saw

theorem Blocks.Told.refl (b : Blocks) : b.Told b := ⟨Blocks.LineStands.refl b, rfl⟩

theorem Blocks.Told.trans {a b c : Blocks} (h : a.Told b) (k : b.Told c) : a.Told c :=
  ⟨⟨k.line.trans h.line, k.pres.trans h.pres⟩, k.saw.trans h.saw⟩

theorem Blocks.post_told (n : Notice) (b : Blocks) : b.Told (b.post n) :=
  ⟨⟨Blocks.post_line n b, Blocks.post_pres n b⟩, Blocks.post_saw n b⟩

/-- Outside a CURRENT replica a claim that fails looks for no other and reports no cost (R127, R178). -/
theorem Blocks.claimFails_told {sh : Shop} (hc : sh.current = false) (p : Plan) (b : Blocks) :
    b.Told (b.claimFails sh p) := by
  unfold Blocks.claimFails Blocks.planEnds Blocks.costPlanEnded Blocks.reportChecks Blocks.search live
  simp only [hc, Bool.and_false, Bool.false_and]
  exact ⟨⟨rfl, rfl⟩, rfl⟩

theorem Blocks.discarded_told {sh : Shop} (hc : sh.current = false) (w : Waiter) (b : Blocks) :
    b.Told (b.discarded sh w) := by
  unfold Blocks.discarded
  split
  · exact b.post_told _
  · exact b.post_told _
  · exact b.post_told _
  · unfold Blocks.plannerDiscarded
    repeat' split
    · exact Blocks.claimFails_told hc _ b
    · exact Blocks.Told.refl b
    · exact ⟨⟨rfl, rfl⟩, rfl⟩
    · exact ⟨⟨rfl, rfl⟩, rfl⟩
    · exact Blocks.Told.refl b
  · exact ⟨⟨rfl, rfl⟩, rfl⟩
  · exact Blocks.Told.refl b

theorem Blocks.discardAll_told {sh : Shop} (hc : sh.current = false) (b : Blocks) :
    Blocks.Told { b with line := b.line.emptied } (b.discardAll sh) := by
  have hrun : ∀ (l : List Waiter) (c : Blocks), c.Told (l.foldl (fun x w => x.discarded sh w) c) := by
    intro l
    induction l with
    | nil => exact Blocks.Told.refl
    | cons w rest ih => exact fun c => (Blocks.discarded_told hc w c).trans (ih _)
  exact hrun _ _

/-- What a REJOIN leaves of the queue, the membership and the replica (R23, R64). -/
structure Station.Rejoined (d : Station) : Prop where
  queue : d.blk.line.queue = []
  waitList : d.blk.line.waitList = []
  backlog : d.blk.line.backlog = []
  mem : d.blk.pres.mem = .outside .listen
  state : d.shop.state = .empty
  rejoin : d.blk.host.rejoinPending = false

/-- The presence unit back in the listen window (R64). -/
def Blocks.listening (b : Blocks) : Blocks :=
  b.onPres (fun p => { p with mem := .outside .listen, listenT := some (b.now + 1500), askT := none, helloT := none })

/-- The stream, the asks, the sealing timer and the waiting REJOIN are dropped (R64). -/
def Blocks.rejoinCleared (b : Blocks) : Blocks :=
  let b1 := (((b.setStream none).clearAsks).onAsking (fun a => { a with answered := false })).setSealT none
  { b1 with host := { b1.host with rejoinPending := false } }

theorem Blocks.rejoinCleared_told (b : Blocks) : b.Told b.rejoinCleared := ⟨⟨rfl, rfl⟩, rfl⟩

/-- The blocks of a REJOIN before the grant is reported (R64). -/
def Blocks.rejoining (b : Blocks) : Blocks := (b.listening.discardAll Shop.emptied).rejoinCleared

theorem Blocks.rejoining_told (b : Blocks) :
    Blocks.Told { b.listening with line := b.line.emptied } b.rejoining :=
  (Blocks.discardAll_told rfl b.listening).trans (Blocks.rejoinCleared_told _)

theorem Station.rejoinNow_eq (d : Station) :
    d.rejoinNow =
      { shop := Shop.emptied, blk := d.blk.rejoining.grantReport (effGrant d.shop d.blk) Shop.emptied } := rfl

theorem Station.rejoinNow_rejoined {d : Station} (hlaw : d.blk.saw.planLaw = true) : d.rejoinNow.Rejoined := by
  have htold := d.blk.rejoining_told
  have hdry := Blocks.grantReport_dry (b := d.blk.rejoining) (sh := Shop.emptied) rfl (htold.saw ▸ hlaw)
    (effGrant d.shop d.blk)
  have hrejoin := ((Tells.refl d.blk.rejoining).grantReport (effGrant d.shop d.blk) Shop.emptied).rejoin
  have hend := hdry.line.trans htold.line
  rw [Station.rejoinNow_eq]
  refine ⟨?_, ?_, ?_, congrArg Presence.mem (hdry.pres.trans htold.pres), rfl, ?_⟩
  · exact congrArg Line.queue hend
  · exact congrArg Line.waitList hend
  · exact congrArg Line.backlog hend
  · exact Bool.eq_false_iff.mpr (fun h => absurd (hrejoin h) Bool.false_ne_true)

/-- A REJOIN that waits takes effect at the end of an attempt (R23, log 10). -/
theorem Station.settleRejoin_waiting {d : Station} (hp : d.blk.host.rejoinPending = true) (h0 : d.blk.line.emissions = 0)
    (ht : d.blk.line.txDone = none) : d.settleRejoin = d.rejoinNow := by
  have hem : d.blk.line.emitting = none := (Line.emissions_eq_zero_iff _).mp h0
  exact if_pos (by simp [hp, hem, ht])

theorem Station.settleRejoin_of_not_pending {d : Station} (h : d.blk.host.rejoinPending = false) : d.settleRejoin = d :=
  if_neg (by simp [h])

/-! ## O17 -/

/-- An attempt that is lost or that collides (R17, R18). -/
def Attempt.command : Attempt → Instr
  | .lost => .arbitrationLost
  | .collision => .collision
  | .broke => .breakEvent

theorem exec_attempt {a : Attempt} (ha : a ≠ .broke) (s : State) :
    exec a.command s = .next { s with dev := (s.dev.onBlk (fun sh b => b.attemptEnds a sh)).settleRejoin } := by
  cases a with
  | lost | collision => rfl
  | broke => exact absurd rfl ha

/-- With no REJOIN waiting the command ends the attempt and nothing more. -/
theorem exec_attempt_settled {a : Attempt} (ha : a ≠ .broke) {s : State} {e : OutEntry}
    (he : s.dev.blk.line.emitting = some e) (hr : s.dev.blk.host.rejoinPending = false) :
    exec a.command s = .next
      { s with dev.blk := (s.dev.blk.attemptFailed a).afterAttempt a e s.dev.shop } := by
  have hd : s.dev.onBlk (fun sh b => b.attemptEnds a sh) =
      { s.dev with blk := (s.dev.blk.attemptFailed a).afterAttempt a e s.dev.shop } :=
    congrArg (fun b => { s.dev with blk := b }) (Blocks.attemptEnds_some he a s.dev.shop)
  rw [exec_attempt ha, hd, Station.settleRejoin_of_not_pending]
  show ((s.dev.blk.attemptFailed a).afterAttempt a e s.dev.shop).host.rejoinPending = false
  rw [((Blocks.QueueMoved.refl _).afterAttempt a e s.dev.shop).host, (s.dev.blk.attemptFailed_failed a).rejoin]
  exact hr

/-- With a REJOIN waiting and no completed frame to be taken, it takes effect (R23). -/
theorem exec_attempt_rejoins {a : Attempt} (ha : a ≠ .broke) {s : State} {e : OutEntry}
    (he : s.dev.blk.line.emitting = some e) (hr : s.dev.blk.host.rejoinPending = true)
    (ht : s.dev.blk.line.txDone = none) (hlaw : s.dev.blk.saw.planLaw = true) :
    Gives (exec a.command s) (fun t => t.dev.Rejoined) := by
  have hf := s.dev.blk.attemptFailed_failed a
  have hq := (Blocks.QueueMoved.refl (s.dev.blk.attemptFailed a)).afterAttempt a e s.dev.shop
  have hends : s.dev.blk.attemptEnds a s.dev.shop = _ := Blocks.attemptEnds_some he a s.dev.shop
  have hnow : (s.dev.onBlk (fun sh b => b.attemptEnds a sh)).settleRejoin =
      (s.dev.onBlk (fun sh b => b.attemptEnds a sh)).rejoinNow := by
    refine Station.settleRejoin_waiting ?_ (Blocks.attemptEnds_emissions a s.dev.shop s.dev.blk) ?_
    · rw [Station.onBlk_blk, hends, hq.host, hf.rejoin, hr]
    · rw [Station.onBlk_blk, hends, hq.wire.txDone, hf.txDone, ht]
  refine ⟨_, exec_attempt ha s, ?_⟩
  dsimp only
  rw [hnow]
  refine Station.rejoinNow_rejoined ?_
  rw [Station.onBlk_blk, hends, hq.saw, hf.saw]
  exact hlaw

theorem Station.onBlk_settled {d : Station} {f : Shop → Blocks → Blocks} (hr : d.blk.host.rejoinPending = false)
    (hf : f d.shop d.blk = d.blk) : (d.onBlk f).settleRejoin = d := by
  have hd : d.onBlk f = d := congrArg (fun b => { d with blk := b }) hf
  rw [hd, Station.settleRejoin_of_not_pending hr]

/-- With no frame in emission nothing ends (log 3). -/
theorem exec_attempt_none {s : State} {c : Instr} (hr : s.dev.blk.host.rejoinPending = false)
    (he : s.dev.blk.line.emitting = none) (hc : c = .arbitrationLost ∨ c = .collision ∨ c = .sendCompleted) :
    exec c s = .next s := by
  have hcompletes : s.dev.blk.completes s.dev.shop = s.dev.blk := by
    unfold Blocks.completes
    rw [he]
  have hstand : ∀ f : Shop → Blocks → Blocks, f s.dev.shop s.dev.blk = s.dev.blk →
      { s with dev := (s.dev.onBlk f).settleRejoin } = s :=
    fun f hf => congrArg (fun d => { s with dev := d }) (Station.onBlk_settled hr hf)
  rcases hc with rfl | rfl | rfl
  · exact congrArg Host.Outcome.next (hstand _ (Blocks.attemptEnds_none he .lost s.dev.shop))
  · exact congrArg Host.Outcome.next (hstand _ (Blocks.attemptEnds_none he .collision s.dev.shop))
  · exact congrArg Host.Outcome.next (hstand (fun sh b => b.completes sh) hcompletes)

/-- The BUDGET whose withdrawal was refused, in HALT and outside it (R114, R115). -/
theorem exec_attempt_budget {a : Attempt} (ha : a ≠ .broke) {s : State} {e : OutEntry}
    (he : s.dev.blk.line.emitting = some e) (hr : s.dev.blk.host.rejoinPending = false) (hg : e.again = true)
    (hk : e.frame.kind = .budget) (hrole : s.dev.blk.pres.role = .plant) (hlive : s.isLive)
    (hst : s.dev.blk.plant.standby = false) :
    (s.dev.blk.plant.band = some .halt → s.dev.blk.plant.published = some 0 → s.dev.blk.plant.lastSent = 0 →
      Gives (exec a.command s) (fun t => t.dev.blk.line.heldBudget = none)) ∧
    (∀ v, s.dev.blk.plant.published = some v → s.dev.blk.plant.band ≠ none → s.dev.blk.plant.band ≠ some .halt →
      v ≤ 8000 → e.producer = .plant → v ≠ budgetValue e.frame →
      (∀ w ∈ s.dev.blk.line.frames, w.producer = .plant → w.frame.kind = .budget → w.frame = e.frame) →
      Gives (exec a.command s) (fun t => t.dev.blk.line.heldBudget = some v ∧ t.dev.blk.plant.lastSent = v)) := by
  obtain ⟨hmem, hcur⟩ := hlive
  have hf := s.dev.blk.attemptFailed_failed a
  have hexec := exec_attempt_settled ha he hr
  refine ⟨fun hb hp hs => ⟨_, hexec, ?_⟩, fun v hv hb hh hle hprod hne hall => ⟨_, hexec, ?_⟩⟩
  · exact Blocks.afterAttempt_budget_halt hg hk (hf.plant ▸ hb) (hf.plant ▸ hp) (hf.plant ▸ hs) hf.emissions a s.dev.shop
  · have hentry : { e with inEmission := false, again := false } ∈ (s.dev.blk.attemptFailed a).line.queue := by
      rw [hf.queue]
      exact List.mem_map.mpr ⟨e, List.mem_of_find?_eq_some he, rfl⟩
    have hwaits : (s.dev.blk.attemptFailed a).line.heldWaiting .plant isBudget = true := by
      simp only [Line.heldWaiting, Bool.or_eq_true, List.any_eq_true]
      exact Or.inl ⟨_, hentry, by simp [OutEntry.isOf, isBudget, hprod, hk]⟩
    have hplants : (s.dev.blk.attemptFailed a).plants = true := by
      simp [Blocks.plants, hf.pres, hrole, hmem]
    have hsame : ∀ w ∈ (s.dev.blk.attemptFailed a).line.frames, w.isOf .plant isBudget = true → w.frame = e.frame := by
      intro w hw hs
      rw [hf.frames] at hw
      simp only [Waiter.isOf, isBudget, Bool.and_eq_true, beq_iff_eq] at hs
      exact hall w hw hs.1 hs.2
    have hpub : (s.dev.blk.attemptFailed a).plant.published ≠ some (budgetValue e.frame) := by
      rw [hf.plant, hv]
      exact fun h => hne (Option.some.inj h)
    dsimp only
    rw [Blocks.afterAttempt_budget hg hk (hf.plant ▸ hh) hpub]
    exact Blocks.plantCompare_replaces hplants (hf.pres ▸ hmem) hcur (hf.plant ▸ hst) (hf.plant ▸ hb) (hf.plant ▸ hh)
      (hf.plant ▸ hv) hle hne hf.emissions hwaits hsame

/-- Settles O17: the two commands are one end of an attempt (`exec_attempt`), read by what the frame's producer does
after it (`Blocks.afterAttempt_of_not_again` and the lemmas beside it) and by the REJOIN that waits. -/
theorem failedAttemptsReturnToWaiting : Obligations.FailedAttemptsReturnToWaiting := by
  refine ⟨fun s c hr he hc => exec_attempt_none hr he hc, ?_⟩
  intro s e he b lost failed both
  have hlost : Attempt.lost ≠ .broke := by decide
  have hcoll : Attempt.collision ≠ .broke := by decide
  refine ⟨fun hr => ⟨fun h => ⟨?_, ?_⟩, fun hg hk => ⟨?_, ?_⟩, fun hg hk hrole hlive hst => ?_⟩, fun hlaw hr ht => ?_⟩
  · refine (exec_attempt_settled hlost he hr).trans ?_
    rw [Blocks.afterAttempt_of_not_again hlost h]
    rfl
  · refine (exec_attempt_settled hcoll he hr).trans ?_
    rw [Blocks.afterAttempt_of_not_again hcoll h]
    rfl
  · refine (exec_attempt_settled hlost he hr).trans ?_
    rw [Blocks.afterAttempt_rebase hg hk]
    rfl
  · refine (exec_attempt_settled hcoll he hr).trans ?_
    rw [Blocks.afterAttempt_rebase hg hk]
    rfl
  · obtain ⟨haltL, restL⟩ := exec_attempt_budget hlost he hr hg hk hrole hlive hst
    obtain ⟨haltC, restC⟩ := exec_attempt_budget hcoll he hr hg hk hrole hlive hst
    exact ⟨fun hb hp hs => ⟨haltL hb hp hs, haltC hb hp hs⟩, fun v hv hb hh hle hprod hne hall =>
      ⟨restL v hv hb hh hle hprod hne hall, restC v hv hb hh hle hprod hne hall⟩⟩
  · have hboth : ∀ a : Attempt, a ≠ .broke → Gives (exec a.command s) (fun t =>
        t.dev.blk.line.queue = [] ∧ t.dev.blk.line.waitList = [] ∧ t.dev.blk.line.backlog = [] ∧
          t.dev.blk.pres.mem = .outside .listen ∧ t.dev.shop.state = .empty ∧
          t.dev.blk.host.rejoinPending = false) := by
      intro a ha
      obtain ⟨t, ht1, h⟩ := exec_attempt_rejoins ha he hr ht hlaw
      exact ⟨t, ht1, h.queue, h.waitList, h.backlog, h.mem, h.state, h.rejoin⟩
    exact ⟨hboth .lost hlost, hboth .collision hcoll⟩

end Sys2Proof.Machine

/-! The break event (R3, R94, R96): the end of the attempt, the grant of 0, and O20. -/

namespace Sys2Proof.Machine

/-! ## The attempt ended by a break (R18, R20) -/

theorem Moves.attemptFailed {n : Bool} {a b : Blocks} (h : Moves n a b) (x : Attempt) : Moves n a (b.attemptFailed x) := by
  have h1 : Moves n a (b.onLine Line.backToWaiting) :=
    h.trans ⟨rfl, rfl, rfl, rfl, rfl, rfl, List.prefix_refl _, fun _ => b.line.backToWaiting_emissions, fun _ => rfl,
      fun _ => rfl, fun _ => rfl, id⟩
  unfold Blocks.attemptFailed Blocks.sendFailed
  split
  · exact h1
  · split
    · exact h1.onQueue rfl
    · exact Moves.post (b := (b.onLine Line.backToWaiting).onLine (fun l => { l with failures := 0, restT := b.after 1000 }))
        (h1.onQueue rfl) _

theorem Moves.afterAttempt {a b : Blocks} (h : Moves true a b) (x : Attempt) (e : OutEntry) (sh : Shop) :
    Moves true a (b.afterAttempt x e sh) := by
  unfold Blocks.afterAttempt
  repeat' split
  · exact h.refreshStream sh
  · exact h
  · exact h.withdrawRebase
  · exact h
  · exact (h.withdraw _ _).plantCompare sh
  · exact h.plantCompare sh
  all_goals exact h

theorem Moves.attemptEnds (x : Attempt) (sh : Shop) (b : Blocks) : Moves true b (b.attemptEnds x sh) := by
  cases he : b.line.emitting with
  | none => rw [Blocks.attemptEnds_none he]; exact Moves.refl true b
  | some e =>
    rw [Blocks.attemptEnds_some he]
    exact ((Moves.refl true b).attemptFailed x).afterAttempt x e sh

/-- What the end of an attempt leaves as it was (R17, R18). -/
structure Blocks.Ended (b c : Blocks) : Prop where
  rx : c.line.rx = b.line.rx
  idle : c.line.idle = b.line.idle
  inBreak : c.line.inBreak = b.line.inBreak
  yielding : c.line.yielding = b.line.yielding
  lastDiscard : c.line.lastDiscard = b.line.lastDiscard
  now : c.now = b.now
  selLow : c.selLow = b.selLow
  stop : c.stop = b.stop
  exchange : c.host.exchange = b.host.exchange
  reply : c.host.reply = b.host.reply
  cursor : c.host.cursor = b.host.cursor
  pres : c.pres = b.pres

theorem Blocks.Ended.refl (b : Blocks) : b.Ended b := ⟨rfl, rfl, rfl, rfl, rfl, rfl, rfl, rfl, rfl, rfl, rfl, rfl⟩

theorem Blocks.attemptEnds_ended (a : Attempt) (sh : Shop) (b : Blocks) : b.Ended (b.attemptEnds a sh) := by
  cases he : b.line.emitting with
  | none => rw [Blocks.attemptEnds_none he]; exact Blocks.Ended.refl b
  | some e =>
    have f := b.attemptFailed_failed a
    have q := (Blocks.QueueMoved.refl (b.attemptFailed a)).afterAttempt a e sh
    rw [Blocks.attemptEnds_some he]
    exact
      { rx := q.wire.rx.trans f.rx
        idle := q.wire.idle.trans f.idle
        inBreak := q.wire.inBreak.trans f.inBreak
        yielding := q.wire.yielding.trans f.yielding
        lastDiscard := q.wire.lastDiscard.trans f.lastDiscard
        now := by rw [q.rest, f.rest]
        selLow := by rw [q.rest, f.rest]
        stop := by rw [q.rest, f.rest]
        exchange := by rw [q.host, f.exchange]
        reply := by rw [q.host, f.reply]
        cursor := by rw [q.host, f.cursor]
        pres := q.pres.trans f.pres }

/-- A notice of a station that is not INERT joins the queue while there is room (R191). -/
theorem Blocks.post_notices {b : Blocks} (hm : b.pres.mem ≠ .inert) (hl : b.host.notices.length < 16) (n : Notice) :
    (b.post n).host.notices = b.host.notices ++ [n] := by
  unfold Blocks.post
  rw [if_neg hm, if_pos hl]

/-- How the failure count, the line rest and the notices stand after an attempt that was broken (R20). -/
structure Blocks.Counted (b c : Blocks) : Prop where
  standing : b.line.emitting = none → c.line.failures = b.line.failures ∧ c.line.restT = b.line.restT
  failed : b.line.emitting ≠ none → b.line.failures < 7 →
    c.line.failures = b.line.failures + 1 ∧ c.line.restT = b.line.restT
  rests : b.line.emitting ≠ none → ¬ b.line.failures < 7 →
    c.line.failures = 0 ∧ c.line.restT = some (b.now + 1000) ∧
      (b.host.notices.length < 16 → b.host.notices ++ [.lineFault .broke] <+: c.host.notices)

/-- Later news of a break moves neither the count nor the rest, and posts behind LINE_FAULT (log 6). -/
theorem Blocks.Counted.told {b c e : Blocks} (h : b.Counted c) (k : Tells c e) (m : Moves true c e) : b.Counted e := by
  have hf : e.line.failures = c.line.failures := k.wire.failures
  have hr : e.line.restT = c.line.restT := k.wire.restT
  refine ⟨fun h0 => ?_, fun h0 h7 => ?_, fun h0 h7 => ?_⟩
  · rw [hf, hr]
    exact h.standing h0
  · rw [hf, hr]
    exact h.failed h0 h7
  · rw [hf, hr]
    obtain ⟨h1, h2, h3⟩ := h.rests h0 h7
    exact ⟨h1, h2, fun hl => (h3 hl).trans m.notices⟩

theorem Blocks.attemptFailed_counted {b : Blocks} (hm : b.pres.mem ≠ .inert) (he : b.line.emitting ≠ none) :
    b.Counted (b.attemptFailed .broke) := by
  refine ⟨fun h => absurd h he, fun _ h7 => ?_, fun _ h7 => ?_⟩
  · have h : b.attemptFailed .broke =
        (b.onLine Line.backToWaiting).onLine (fun l => { l with failures := l.failures + 1 }) := if_pos h7
    rw [h]
    exact ⟨rfl, rfl⟩
  · have h : b.attemptFailed .broke =
        ((b.onLine Line.backToWaiting).onLine (fun l => { l with failures := 0, restT := b.after 1000 })).post
          (.lineFault .broke) := if_neg h7
    rw [h, Blocks.post_line]
    refine ⟨rfl, rfl, fun hl => ?_⟩
    rw [Blocks.post_notices (by exact hm) (by exact hl)]
    exact List.prefix_refl _

theorem Blocks.attemptEnds_counted {b : Blocks} (hm : b.pres.mem ≠ .inert) (sh : Shop) :
    b.Counted (b.attemptEnds .broke sh) := by
  cases he : b.line.emitting with
  | none =>
    rw [Blocks.attemptEnds_none he]
    exact ⟨fun _ => ⟨rfl, rfl⟩, fun h => absurd he h, fun h => absurd he h⟩
  | some e =>
    have h := Blocks.attemptFailed_counted hm (by simp [he])
    have q := (Blocks.QueueMoved.refl (b.attemptFailed .broke)).afterAttempt .broke e sh
    rw [Blocks.attemptEnds_some he]
    refine ⟨fun h0 => absurd h0 (by simp [he]), fun h0 h7 => ?_, fun h0 h7 => ?_⟩
    · rw [q.wire.failures, q.wire.restT]
      exact h.failed h0 h7
    · rw [q.wire.failures, q.wire.restT, q.host]
      exact h.rests h0 h7

/-! ## The grant at a break (R94, R100, R149) -/

/-- The sequencer's grant has gone to 0, the membership and the plant unit standing. -/
structure Blocks.GrantGone (b c : Blocks) : Prop where
  moves : Moves true b c
  tells : Tells b c
  grant : c.saw.grant = 0
  mem : c.pres.mem = b.pres.mem
  plant : c.plant = b.plant

theorem Blocks.setGrant_gone (sh : Shop) (b : Blocks) : b.GrantGone (b.setGrant sh 0) := by
  refine ⟨(Moves.refl true b).setGrant sh 0, (Tells.refl b).setGrant sh 0, ?_, ?_, ?_⟩
  all_goals
    unfold Blocks.setGrant
    split
  · next h => exact h
  · exact ((Moves.refl false (b.onSaw (fun w => { w with grant := 0 }))).grantMoves sh).grant rfl
  · rfl
  · exact ((Moves.refl false (b.onSaw (fun w => { w with grant := 0 }))).grantMoves sh).mem rfl
  · rfl
  · exact ((Moves.refl false (b.onSaw (fun w => { w with grant := 0 }))).grantMoves sh).plant rfl

namespace Blocks.GrantGone

variable {a b : Blocks} {sh : Shop}

theorem moved (h : a.GrantGone b) {c : Blocks} (m : Moves false b c) (k : Tells b c) : a.GrantGone c :=
  ⟨h.moves.trans m.asNews, h.tells.trans k, (m.grant rfl).trans h.grant, (m.mem rfl).trans h.mem,
    (m.plant rfl).trans h.plant⟩

/-- The report of an effective grant that has not moved, or that is 0 too, leaves the grant at 0. -/
theorem grantReport (h : a.GrantGone b) {before : Nat} (he : effGrant sh b = before ∨ effGrant sh b = 0) :
    a.GrantGone (b.grantReport before sh) := by
  unfold Blocks.grantReport
  split
  · exact h
  · next hne =>
    have h0 : effGrant sh b = 0 := he.resolve_left hne
    have hset : b.setGrant sh (effGrant sh b) = b := by rw [h0]; exact if_pos h.grant
    rw [hset]
    exact h.moved ((Moves.refl false b).post _) ((Tells.refl b).post _)

theorem streamAfter (h : a.GrantGone b) (members ledger : Bool) (sh : Shop) :
    a.GrantGone (b.streamAfter members ledger sh) :=
  h.moved ((Moves.refl false b).streamAfter members ledger sh) ((Tells.refl b).streamAfter members ledger sh)

end Blocks.GrantGone

end Sys2Proof.Machine

/-! The plant unit and the replica at a break (R94, R96), and O20. -/

namespace Sys2Proof.Machine

/-! ## The plant unit's news (R96) -/

/-- A station that may not publish, or has nothing to publish, keeps its last sent value at a comparison (R113, R114). -/
theorem Blocks.plantCompare_plant {b : Blocks} {sh : Shop} (h : live sh b = false ∨ b.plant.published = none) :
    (b.plantCompare sh).plant = b.plant := by
  unfold Blocks.plantCompare Blocks.comparePublished
  split
  · split
    · rfl
    · next v hv =>
      have hlive : live sh b = false := h.resolve_right (by simp [hv])
      have hmay : b.mayPublish sh = false := by simp [Blocks.mayPublish, hlive]
      have hmay' : b.withdrawBudget.mayPublish sh = false := by
        simp [Blocks.mayPublish, show live sh b.withdrawBudget = false from hlive]
      split
      · split
        · rfl
        · simp only [hmay', Bool.and_false]
          rfl
      · simp only [hmay, Bool.not_false, Bool.or_true, if_true]
  · rfl

theorem Blocks.ledgerReport_lastSent {b : Blocks} {sh : Shop} (hp : b.plants = true)
    (h : live sh b = false ∨ b.plant.published = none) :
    (b.ledgerReport sh).plant.lastSent = sh.rep.ledger.budget := by
  unfold Blocks.ledgerReport
  rw [if_pos hp]
  exact congrArg PlantUnit.lastSent
    (Blocks.plantCompare_plant (b := b.onPlant (fun p => { p with lastSent := sh.rep.ledger.budget })) h)

theorem Blocks.breakReport_empty (sh : Shop) (b : Blocks) : b.breakReport .empty sh = b := rfl

theorem Blocks.breakReport_of_not_empty {st : ReplicaState} (h : st ≠ .empty) (sh : Shop) (b : Blocks) :
    b.breakReport st sh = b.ledgerReport sh := by
  cases st with
  | empty => exact absurd rfl h
  | current | stale | building => rfl

theorem Blocks.breakReport_moved (st : ReplicaState) (sh : Shop) (b : Blocks) :
    b.QueueMoved (b.breakReport st sh) ∧ Tells b (b.breakReport st sh) ∧ Moves true b (b.breakReport st sh) := by
  by_cases h : st = .empty
  · rw [h, Blocks.breakReport_empty]
    exact ⟨Blocks.QueueMoved.refl b, Tells.refl b, Moves.refl true b⟩
  · rw [Blocks.breakReport_of_not_empty h]
    exact ⟨(Blocks.QueueMoved.refl b).ledgerReport sh, (Tells.refl b).ledgerReport sh, (Moves.refl true b).ledgerReport sh⟩

/-- A build given up by the break asks again (R45): the sequencer's grant and the plant unit stand. -/
theorem Blocks.asksAgain (sh : Shop) (b : Blocks) :
    Tells b (((b.setPhase .asking).setAskT none).ask sh) ∧ Moves true b (((b.setPhase .asking).setAskT none).ask sh) ∧
      (((b.setPhase .asking).setAskT none).ask sh).saw.grant = b.saw.grant ∧
      (((b.setPhase .asking).setAskT none).ask sh).plant = b.plant := by
  have m := ((Moves.refl false (b.setPhase .asking)).setAskT none).ask sh
  have hphase : (b.setPhase .asking).saw = b.saw ∧ (b.setPhase .asking).plant = b.plant := by
    unfold Blocks.setPhase
    split <;> exact ⟨rfl, rfl⟩
  exact ⟨(((Tells.refl b).setPhase .asking).setAskT none).ask sh, (((Moves.refl true b).setPhase .asking).setAskT none).ask sh,
    (m.grant rfl).trans (congrArg Saw.grant hphase.1), (m.plant rfl).trans hphase.2⟩

/-! ## The line at a break (R3) -/

theorem Line.broken_frees (l : Line) :
    l.broken.inBreak = true ∧ l.broken.idle = false ∧ l.broken.rx = .waitIdle ∧ l.broken.yielding = l.yielding ∧
      l.broken.lastDiscard = (if l.rx.inFrame || l.badStop then some .broken else l.lastDiscard) := by
  unfold Line.broken
  dsimp only
  split
  all_goals exact ⟨rfl, rfl, rfl, rfl, rfl⟩

theorem Line.broken_counts (l : Line) :
    l.broken.emitting = l.emitting ∧ l.broken.failures = l.failures ∧ l.broken.restT = l.restT := by
  unfold Line.broken
  dsimp only
  split
  all_goals exact ⟨rfl, rfl, rfl⟩

theorem Blocks.Counted.of_broken {b c : Blocks} (h : (b.onLine Line.broken).Counted c) : b.Counted c := by
  obtain ⟨hem, hfail, hrest⟩ := b.line.broken_counts
  obtain ⟨standing, failed, rests⟩ := h
  simp only [Blocks.onLine_line, Blocks.onLine_now, Blocks.onLine_host, hem, hfail, hrest] at standing failed rests
  exact ⟨standing, failed, rests⟩

/-- What a break leaves of the blocks, whatever the replica state (R3, R20, R94). -/
structure Blocks.Broken (b c : Blocks) : Prop where
  inBreak : c.line.inBreak = true
  idle : c.line.idle = false
  rx : c.line.rx = .waitIdle
  still : ∀ e ∈ c.line.queue, e.inEmission = false
  lastDiscard : c.line.lastDiscard = if b.line.rx.inFrame || b.line.badStop then some .broken else b.line.lastDiscard
  yielding : c.line.yielding = b.line.yielding
  grant : c.saw.grant = 0
  now : c.now = b.now
  selLow : c.selLow = b.selLow
  stop : c.stop = b.stop
  exchange : c.host.exchange = b.host.exchange
  reply : c.host.reply = b.host.reply
  cursor : c.host.cursor = b.host.cursor
  enc : c.saw.enc = b.saw.enc
  counted : b.Counted c

/-- The blocks of a break once its attempt has ended. -/
def Blocks.breakEnds (sh : Shop) (b : Blocks) : Blocks := (b.onLine Line.broken).attemptEnds .broke sh

/-- News that follows the end of the attempt and takes the grant to 0 leaves a broken line (R3). -/
theorem Blocks.broken_of {b c : Blocks} {sh : Shop} (hm : b.pres.mem ≠ .inert) (k : Tells (b.breakEnds sh) c)
    (m : Moves true (b.breakEnds sh) c) (hg : c.saw.grant = 0) : b.Broken c := by
  have ends := Blocks.attemptEnds_ended .broke sh (b.onLine Line.broken)
  have count := Blocks.attemptEnds_counted (b := b.onLine Line.broken) hm sh
  have moves := (Moves.attemptEnds .broke sh (b.onLine Line.broken)).trans m
  obtain ⟨hbreak, hidle, hrx, hyield, hdiscard⟩ := b.line.broken_frees
  have hstill := m.still (Blocks.attemptEnds_emissions .broke sh (b.onLine Line.broken))
  exact
    { inBreak := k.wire.inBreak.trans (ends.inBreak.trans hbreak)
      idle := k.wire.idle.trans (ends.idle.trans hidle)
      rx := k.wire.rx.trans (ends.rx.trans hrx)
      still := (Line.emitting_none_iff _).mp ((Line.emissions_eq_zero_iff _).mp hstill)
      lastDiscard := k.wire.lastDiscard.trans (ends.lastDiscard.trans hdiscard)
      yielding := k.wire.yielding.trans (ends.yielding.trans hyield)
      grant := hg
      now := k.now.trans ends.now
      selLow := k.selLow.trans ends.selLow
      stop := k.stop.trans ends.stop
      exchange := k.exchange.trans ends.exchange
      reply := k.reply.trans ends.reply
      cursor := k.cursor.trans ends.cursor
      enc := moves.enc
      counted := (count.told k m).of_broken }

/-! ## The grant after a break (R94, R100) -/

theorem effGrant_drained {sh : Shop} {l : Ledger} (h : sh.rep.ledger = l.drained) (b : Blocks) : effGrant sh b = 0 := by
  unfold effGrant
  split
  · rw [h]
    split
    · next e he =>
      have hmem := List.mem_of_find?_eq_some he
      obtain ⟨x, _, rfl⟩ := List.mem_map.mp hmem
      rfl
    · rfl
  · rfl

/-- The effective grant is read off the replica, its state and the straps (R100). -/
theorem effGrant_congr {sh sh' : Shop} {b c : Blocks} (hst : sh'.state = sh.state) (hrep : sh'.rep = sh.rep)
    (hrole : c.pres.role = b.pres.role) (hstation : c.pres.station = b.pres.station) : effGrant sh' c = effGrant sh b := by
  unfold effGrant Shop.current
  rw [hst, hrep, hrole, hstation]

/-! ## The two ways of a break -/

/-- The blocks of a break that abandons no build, before the plant unit's news. -/
def Blocks.breakGrants (before : Nat) (sh : Shop) (b : Blocks) : Blocks :=
  (((b.breakEnds sh).setGrant sh 0).grantReport before sh).streamBroken sh

theorem Station.breakEvent_some {d : Station} {sh : Shop} (h : d.shop.onBreak = some sh) :
    d.breakEvent =
      { shop := sh, blk := (d.blk.breakGrants (effGrant d.shop d.blk) sh).breakReport d.shop.state sh } := by
  unfold Station.breakEvent
  rw [h]
  rfl

theorem Station.breakEvent_none {d : Station} (h : d.shop.onBreak = none) :
    d.breakEvent =
      { shop := d.shop.brokenAside
        blk := (((((d.blk.breakEnds d.shop.brokenAside).setGrant d.shop.brokenAside 0).breakReport d.shop.state
          d.shop.brokenAside).setPhase .asking).setAskT none).ask d.shop.brokenAside } := by
  unfold Station.breakEvent
  rw [h]
  rfl

/-- What the plant unit takes from a break of a station whose shop state was `st` and is `sh` (R96, log 22). -/
structure Blocks.PlantBroken (st : ReplicaState) (sh : Shop) (b c : Blocks) : Prop where
  sent : b.pres.mem ≠ .inert → b.pres.role = .plant → st ≠ .empty →
    live sh b = false ∨ b.plant.published = none → c.plant.lastSent = sh.rep.ledger.budget
  stands : st = .empty → b.line.emitting = none → c.plant = b.plant

/-- The plant unit's news after a grant of 0, whatever the report before it. -/
theorem Blocks.breakReport_plant {b c : Blocks} {sh : Shop} (h : (b.breakEnds sh).GrantGone c) (st : ReplicaState) :
    b.PlantBroken st sh (c.breakReport st sh) := by
  have ends := Blocks.attemptEnds_ended .broke sh (b.onLine Line.broken)
  have hpres : (b.breakEnds sh).pres = b.pres := ends.pres
  have hmem : c.pres.mem = b.pres.mem := h.mem.trans (congrArg Presence.mem hpres)
  have hrole : c.pres.role = b.pres.role := h.tells.role.trans (congrArg Presence.role hpres)
  have hpub : c.plant.published = b.plant.published :=
    ((Moves.attemptEnds .broke sh (b.onLine Line.broken)).trans h.moves).published
  refine ⟨fun hm hr hst hor => ?_, fun hst he => ?_⟩
  · have hplants : c.plants = true := by simp [Blocks.plants, hmem, hrole, hm, hr]
    have hlive : live sh c = live sh b := by simp [live, Blocks.isMember, hmem]
    rw [Blocks.breakReport_of_not_empty hst]
    exact Blocks.ledgerReport_lastSent hplants (by rw [hlive, hpub]; exact hor)
  · have hends : b.breakEnds sh = b.onLine Line.broken :=
      Blocks.attemptEnds_none (b := b.onLine Line.broken) (b.line.broken_counts.1.trans he) .broke sh
    rw [hst, Blocks.breakReport_empty, h.plant, hends]
    rfl

/-- A break that abandons no build (R94), where the effective grant has not moved or is 0. -/
theorem Station.breakEvent_keeps {d : Station} {sh : Shop} (hm : d.blk.pres.mem ≠ .inert)
    (h : d.shop.onBreak = some sh) (hst : sh.state = d.shop.state)
    (hrep : sh.rep = d.shop.rep ∨ sh.rep.ledger = d.shop.rep.ledger.drained) :
    d.breakEvent.shop = sh ∧ d.blk.Broken d.breakEvent.blk ∧ d.blk.PlantBroken d.shop.state sh d.breakEvent.blk := by
  have ends := Blocks.attemptEnds_ended .broke sh (d.blk.onLine Line.broken)
  have hpres : (d.blk.breakEnds sh).pres = d.blk.pres := ends.pres
  have gone := Blocks.setGrant_gone sh (d.blk.breakEnds sh)
  have heff : effGrant sh ((d.blk.breakEnds sh).setGrant sh 0) = effGrant d.shop d.blk ∨
      effGrant sh ((d.blk.breakEnds sh).setGrant sh 0) = 0 := by
    refine hrep.imp (fun hr => ?_) (fun hr => effGrant_drained hr _)
    exact effGrant_congr hst hr (gone.tells.role.trans (congrArg Presence.role hpres))
      (gone.tells.station.trans (congrArg Presence.station hpres))
  have granted : (d.blk.breakEnds sh).GrantGone (d.blk.breakGrants (effGrant d.shop d.blk) sh) :=
    (gone.grantReport heff).streamAfter false true sh
  obtain ⟨q, k, m⟩ := Blocks.breakReport_moved d.shop.state sh (d.blk.breakGrants (effGrant d.shop d.blk) sh)
  rw [Station.breakEvent_some h]
  exact ⟨rfl, Blocks.broken_of hm (granted.tells.trans k) (granted.moves.trans m) ((congrArg Saw.grant q.saw).trans granted.grant),
    Blocks.breakReport_plant granted d.shop.state⟩

/-- A break that abandons the build (R41, R94). -/
theorem Station.breakEvent_abandons {d : Station} (hm : d.blk.pres.mem ≠ .inert) (h : d.shop.onBreak = none) :
    d.breakEvent.shop = d.shop.brokenAside ∧ d.blk.Broken d.breakEvent.blk ∧
      d.blk.PlantBroken d.shop.state d.shop.brokenAside d.breakEvent.blk := by
  have gone := Blocks.setGrant_gone d.shop.brokenAside (d.blk.breakEnds d.shop.brokenAside)
  obtain ⟨q, k, m⟩ := Blocks.breakReport_moved d.shop.state d.shop.brokenAside
    ((d.blk.breakEnds d.shop.brokenAside).setGrant d.shop.brokenAside 0)
  obtain ⟨k', m', hgrant, hplant⟩ := Blocks.asksAgain d.shop.brokenAside
    (((d.blk.breakEnds d.shop.brokenAside).setGrant d.shop.brokenAside 0).breakReport d.shop.state d.shop.brokenAside)
  have plant := Blocks.breakReport_plant gone d.shop.state
  rw [Station.breakEvent_none h]
  refine ⟨rfl, Blocks.broken_of hm ((gone.tells.trans k).trans k') ((gone.moves.trans m).trans m') ?_, ?_⟩
  · exact hgrant.trans ((congrArg Saw.grant q.saw).trans gone.grant)
  · exact ⟨fun h1 h2 h3 h4 => (congrArg PlantUnit.lastSent hplant).trans (plant.sent h1 h2 h3 h4),
      fun h1 h2 => hplant.trans (plant.stands h1 h2)⟩

/-! ## O20 -/

theorem exec_breakEvent_begins {s : State} (hm : s.dev.blk.pres.mem ≠ .inert) (hb : s.dev.blk.line.inBreak = false)
    (hr : s.dev.blk.host.rejoinPending = false) : exec .breakEvent s = .next { s with dev := s.dev.breakEvent } := by
  have hkeep : s.dev.breakEvent.blk.host.rejoinPending = false :=
    Bool.eq_false_iff.mpr (fun h => by
      have := (Keeps.breakEvent s.dev).rejoin h
      rw [hr] at this
      exact absurd this Bool.false_ne_true)
  rw [exec_breakEvent, State.run_eq, if_pos (by simp [Blocks.onAir_of hm, hb]), Station.settleRejoin_of_not_pending hkeep]

end Sys2Proof.Machine

/-! O20: what the replica becomes at a break (R41, R94), and the break as a command. -/

namespace Sys2Proof.Machine

/-! ## The replica at a break (R41, R94) -/

/-- The build with the replica set aside drained (R94). -/
def Build.drained (x : Build) : Build := { x with aside := { x.aside with ledger := x.aside.ledger.drained } }

theorem Shop.onBreak_of_no_build {sh : Shop} (h : sh.build = none) :
    sh.onBreak = some { sh with rep := { sh.rep with ledger := sh.rep.ledger.drained } } := by
  unfold Shop.onBreak
  rw [h]

theorem Shop.onBreak_early {sh : Shop} {x : Build} (h : sh.build = some x) (hr : x.reached < 2) :
    sh.onBreak = some { sh with build := some x.drained } := by
  unfold Shop.onBreak
  rw [h]
  dsimp only
  rw [if_neg (by omega), if_neg (by omega)]
  rfl

theorem Shop.onBreak_late {sh : Shop} {x : Build} (h : sh.build = some x) (hr : 2 < x.reached) :
    sh.onBreak =
      some { sh with build := some x.drained, rep := { sh.rep with ledger := sh.rep.ledger.drained } } := by
  unfold Shop.onBreak
  rw [h]
  dsimp only
  rw [if_neg (by omega), if_pos hr]
  rfl

theorem Shop.onBreak_in_ledger {sh : Shop} {x : Build} (h : sh.build = some x) (hr : x.reached = 2) :
    sh.onBreak = none := by
  unfold Shop.onBreak
  rw [h]
  exact if_pos hr

theorem Shop.brokenAside_of {sh : Shop} {x : Build} (h : sh.build = some x) :
    sh.brokenAside = { state := x.asideState, gen := x.asideGen, rep := x.drained.aside, build := none } := by
  unfold Shop.brokenAside
  rw [Shop.abandoned_of h]
  rfl

/-- A sound shop state sets aside no CURRENT replica (R39). -/
theorem Shop.aside_not_current {sh : Shop} {x : Build} (hs : sh.sound = true) (h : sh.build = some x) :
    x.asideState ≠ .current := by
  unfold Shop.sound at hs
  rw [h] at hs
  simp only [Bool.and_eq_true, Bool.or_eq_true, beq_iff_eq] at hs
  obtain ⟨_, ⟨⟨⟨⟨_, haside⟩, _⟩, _⟩, _⟩⟩ := hs
  intro hc
  rw [hc] at haside
  exact absurd haside (by decide)

theorem live_false_of_state {sh : Shop} (h : sh.state ≠ .current) (b : Blocks) : live sh b = false := by
  simp [live, Shop.current, h]

/-- A shop state that stands LIVE or not as that of the station before it. -/
theorem live_false_of_not_isLive {s : State} {sh : Shop} (h : ¬ s.isLive) (hst : sh.state = s.dev.shop.state) :
    live sh s.dev.blk = false := by
  rw [← Bool.not_eq_true]
  intro hl
  refine h ?_
  simpa [live, Blocks.isMember, Shop.current, hst, State.isLive] using hl

/-! ## O20 -/

/-- Settles O20: one break is a break of the line (`Blocks.broken_of`), of the plant unit's last sent value
(`Blocks.breakReport_plant`) and of the replica (`Shop.onBreak_of_no_build` and the lemmas beside it). -/
theorem breakEventDrainsTheLedger : Obligations.BreakEventDrainsTheLedger := by
  intro s hm b l drained failure plant broken
  have assemble : ∀ sh : Shop, l.inBreak = false → b.host.rejoinPending = false →
      (s.dev.breakEvent.shop = sh ∧ b.Broken s.dev.breakEvent.blk ∧
        b.PlantBroken s.dev.shop.state sh s.dev.breakEvent.blk) →
      (s.dev.shop.sound = true → ¬ s.isLive → live sh b = false) →
      Gives (exec .breakEvent s) (fun t => broken t ∧ t.dev.shop = sh) := by
    intro sh hb hr ⟨hsh, hbr, hpl⟩ hlive
    refine ⟨_, exec_breakEvent_begins hm hb hr, ⟨rfl, hbr.inBreak, hbr.idle, hbr.rx, hbr.still, hbr.lastDiscard,
      hbr.yielding, hbr.grant, hbr.now, hbr.selLow, hbr.stop, hbr.exchange, hbr.reply, hbr.cursor, hbr.enc, ?_, ?_, ?_⟩, hsh⟩
    · show ite _ _ _
      split
      · next h => exact hbr.counted.standing h
      · next h =>
        split
        · next h7 => exact hbr.counted.failed h h7
        · next h7 => exact hbr.counted.rests h h7
    · intro hs hrole hst hor
      exact (hpl.sent hm hrole hst (hor.imp_left (hlive hs))).trans (congrArg (fun x => x.rep.ledger.budget) hsh.symm)
    · exact hpl.stands
  refine ⟨fun hb => ?_, fun hb hr => ⟨fun hbuild => ?_, fun x hbuild => ⟨fun h => ?_, fun h => ?_, fun h => ?_⟩⟩⟩
  · rw [exec_breakEvent, State.run_eq, if_neg (by simp [show s.dev.blk.line.inBreak = true from hb])]
  · exact assemble _ hb hr (Station.breakEvent_keeps hm (Shop.onBreak_of_no_build hbuild) rfl (Or.inr rfl))
      (fun _ h => live_false_of_not_isLive h rfl)
  · exact assemble _ hb hr (Station.breakEvent_keeps hm (Shop.onBreak_early hbuild h) rfl (Or.inl rfl))
      (fun _ hl => live_false_of_not_isLive hl rfl)
  · have hab := Station.breakEvent_abandons hm (Shop.onBreak_in_ledger hbuild h)
    rw [Shop.brokenAside_of hbuild] at hab
    exact assemble _ hb hr hab (fun hs _ => live_false_of_state (Shop.aside_not_current hs hbuild) b)
  · exact assemble _ hb hr (Station.breakEvent_keeps hm (Shop.onBreak_late hbuild h) rfl (Or.inr rfl))
      (fun _ hl => live_false_of_not_isLive hl rfl)

end Sys2Proof.Machine

/-! FULL_RESET (R49) and the line's events (R2, R3, R9, R19 to R21, R50). -/

namespace Sys2Proof.Machine

/-! ## FULL_RESET (R49) -/

/-- The straps that make a station INERT (R50), read as the pins have them. -/
theorem strapsInert_toNat (station : BitVec 4) (rate : BitVec 2) :
    strapsInert station.toNat rate.toNat = (station == 0 || rate == 0) := by
  have hzero : ∀ {w : Nat} (x : BitVec w), (x.toNat == 0) = (x == 0#w) := fun x => by
    rw [Bool.eq_iff_iff, beq_iff_eq, beq_iff_eq, ← BitVec.toNat_inj, BitVec.toNat_zero]
  exact congrArg₂ (· || ·) (hzero station) (hzero rate)

/-- Settles O3: FULL_RESET reads the old state for SEL, STOP and the count of free values alone, and the straps settle the
timers that an INERT station does not run. -/
theorem fullResetSetsEveryBlock : Obligations.FullResetSetsEveryBlock := by
  intro station rolePin rate s inert
  have hinert : strapsInert station.toNat rate.toNat = inert := strapsInert_toNat station rate
  show Host.Outcome.next _ = Host.Outcome.next _
  congr 2
  unfold Station.afterReset Presence.afterReset
  rw [hinert]
  cases rolePin <;> cases inert <;> rfl

/-- An EMPTY replica and the saw at rest are sound in either role: there is nothing granted and nothing held (R49, R100). -/
theorem Station.afterReset_sawSound (station : Nat) (role : Role) (rate : Nat) (selLow stop : Bool) (draws : Nat) :
    sawSound Shop.emptied (Station.afterReset station role rate selLow stop draws).blk = true := by
  have hrest : (Station.afterReset station role rate selLow stop draws).blk.restLaw = true :=
    Bool.or_eq_true_iff.mpr (Or.inr rfl)
  unfold sawSound
  rw [hrest]
  rfl

theorem Station.afterReset_sound (station : Nat) (role : Role) (rate : Nat) (selLow stop : Bool) (draws : Nat) :
    (Station.afterReset station role rate selLow stop draws).sound = true := by
  have hshop : (Station.afterReset station role rate selLow stop draws).shop = Shop.emptied := rfl
  unfold Station.sound
  rw [hshop, Station.afterReset_sawSound]
  rfl

/-- Settles O4: no strap and no pin enters the laws that a full reset meets. -/
theorem resetStatesAreSound : Obligations.ResetStatesAreSound :=
  ⟨by decide, by decide, fun station rolePin rate s =>
    ⟨_, rfl, Station.afterReset_sound station.toNat (roleOfPin rolePin) rate.toNat _ _ _, rfl⟩⟩

/-! ## The line's events (R2, R3, R9, R19 to R21) -/

/-- A step of the line controller on the air (R50). -/
theorem Station.lineStep_onAir {d : Station} (h : d.blk.pres.mem ≠ .inert) (f : Line → Line) :
    d.lineStep f = { d with blk := d.blk.onLine f } := if_pos (Blocks.onAir_of h)

theorem Blocks.onAir_inert {b : Blocks} (h : b.pres.mem = .inert) : b.onAir = false := by
  simp [Blocks.onAir, h]

theorem Station.lineStep_inert {d : Station} (h : d.blk.pres.mem = .inert) (f : Line → Line) : d.lineStep f = d :=
  if_neg (by simp [Blocks.onAir_inert h])

theorem Station.frameArrives_inert {d : Station} (h : d.blk.pres.mem = .inert) (f : Taken) : d.frameArrives f = d :=
  if_neg (by simp [Blocks.onAir_inert h])

theorem Station.receive_inert {d : Station} (h : d.blk.pres.mem = .inert) (data : Byte) (mark stop : Bool) :
    d.receive data mark stop = d := if_neg (by simp [Blocks.onAir_inert h])

theorem Blocks.transmit_inert {b : Blocks} (h : b.pres.mem = .inert) (sh : Shop) : b.transmit sh = b :=
  if_neg (by simp [Blocks.mayTransmit, h, Membership.sends])

/-- A command that leaves the part as it is leaves the state as it is. -/
theorem State.run_stands {f : Station → Station} {s : State} (h : f s.dev = s.dev) : s.run f = .next s := by
  rw [State.run_eq, h]

/-- An INERT station sees nothing of the line (R50). -/
theorem exec_line_inert {c : Instr} {s : State} (hc : isLineCommand c = true) (h : s.dev.blk.pres.mem = .inert) :
    exec c s = .next s := by
  have hair := Blocks.onAir_inert h
  cases c with
  | receiveCharacter data mark stop => exact State.run_stands (Station.receive_inert h data mark stop)
  | lineIdle | frameTimeLimit | breakEnd | haltBreakEnd | yieldClear => exact State.run_stands (Station.lineStep_inert h _)
  | breakEvent =>
    rw [exec_breakEvent]
    exact State.run_stands (if_neg (by simp [hair]))
  | transmitStart => exact State.run_stands (congrArg (fun b => { s.dev with blk := b }) (Blocks.transmit_inert h s.dev.shop))
  | budget | flowAsk | flowDrop | join | gone | rebase | slabAdd | claim | release | reclaim | consume | scrap
  | freeOrphanFrame | jobOpen | jobClose | costReport | hello | syncAsk | snap =>
    exact State.run_stands (Station.frameArrives_inert h _)
  | _ => exact absurd hc Bool.false_ne_true

/-- A command of the line controller on the air. -/
theorem State.run_lineStep {s : State} (h : s.dev.blk.pres.mem ≠ .inert) (f : Line → Line) :
    s.run (Station.lineStep f) = .next { s with dev.blk.line := f s.dev.blk.line } := by
  rw [State.run_eq, Station.lineStep_onAir h]
  rfl

/-- A step of the line controller that leaves the line as it is. -/
theorem State.run_lineStep_stands {s : State} {f : Line → Line} (hf : f s.dev.blk.line = s.dev.blk.line)
    (h : s.dev.blk.pres.mem ≠ .inert) : s.run (Station.lineStep f) = .next s := by
  rw [State.run_lineStep h, hf]

theorem Line.timeLimitRuns_of_not_inFrame {l : Line} (h : l.rx.inFrame = false) : l.timeLimitRuns = l :=
  if_neg (by simp [h])

theorem exec_lineRestExpiry_running {s : State} {d : Nat} (h : s.dev.blk.line.restT = some d) :
    exec .lineRestExpiry s = .next { s with dev.blk.now := max s.dev.blk.now d, dev.blk.line.restT := none } := by
  show execLineRestExpiry s = _
  simp only [execLineRestExpiry, State.run_eq, Station.onBlk, h]
  rfl

theorem exec_lineRestExpiry_stopped {s : State} (h : s.dev.blk.line.restT = none) : exec .lineRestExpiry s = .next s := by
  show execLineRestExpiry s = _
  simp only [execLineRestExpiry, State.run_eq, Station.onBlk, h]

/-- Settles O15: INERT by `exec_line_inert`; on the air each event is one change of the line controller
(`State.run_lineStep`). -/
theorem lineEventsMoveTheLineController : Obligations.LineEventsMoveTheLineController := by
  refine ⟨fun c s => exec_line_inert, ?_⟩
  intro s hm l
  have moved : ∀ {f : Line → Line} {l' : Line}, f l = l' →
      s.run (Station.lineStep f) = .next { s with dev.blk.line := l' } := fun hf => hf ▸ State.run_lineStep hm _
  refine ⟨fun hb hh => ?_, fun h => ?_, fun chars h => ?_, fun h => ?_, fun h => ?_, fun h => ?_, ?_, ?_,
    fun d => exec_lineRestExpiry_running, exec_lineRestExpiry_stopped⟩
  · exact moved (if_neg (by simp [hb, hh]) : l.idleRead = _)
  · exact State.run_lineStep_stands (if_pos (by simpa using h)) hm
  · exact moved (if_pos (by rw [h]; rfl) : l.timeLimitRuns = l.discard .timeout)
  · exact State.run_lineStep_stands (Line.timeLimitRuns_of_not_inFrame h) hm
  · exact moved (if_pos h)
  · exact State.run_lineStep_stands (if_neg (by simpa using h)) hm
  · exact moved rfl
  · exact moved rfl

end Sys2Proof.Machine

/-! The listen, HELLO and silence timers (R52, R53, R58, R59). -/

namespace Sys2Proof.Machine

/-! ## The membership timers (R52, R53, R58, R59) -/

/-- A command of the blocks alone, by what it makes of them. -/
theorem State.run_onBlk {f : Shop → Blocks → Blocks} {s : State} {b : Blocks} (h : f s.dev.shop s.dev.blk = b) :
    s.run (Station.onBlk f) = .next { s with dev.blk := b } :=
  h ▸ rfl

theorem State.run_onBlk_stands {f : Shop → Blocks → Blocks} {s : State} (h : f s.dev.shop s.dev.blk = s.dev.blk) :
    s.run (Station.onBlk f) = .next s := State.run_onBlk h

theorem Blocks.onExpiry_stopped {timer : Blocks → Option Nat} {b : Blocks} (h : timer b = none)
    (act : Nat → Blocks → Blocks) : b.onExpiry timer act = b := by
  unfold Blocks.onExpiry
  rw [h]

theorem Blocks.onExpiry_running {timer : Blocks → Option Nat} {b : Blocks} {d : Nat} (h : timer b = some d)
    (act : Nat → Blocks → Blocks) : b.onExpiry timer act = act d (b.atDeadline d) := by
  unfold Blocks.onExpiry
  rw [h]

/-- A station that takes offers has the frame offered to its line (R14). -/
theorem Blocks.offer_of_offers {b : Blocks} (h : b.pres.mem.offers = true) (p : Producer) (f : Frame) :
    b.offer p f = { b with line := b.line.offer p f } := if_pos h

/-- The station asks: one SYNC_ASK stands for the ask (R30, log 49). -/
theorem Blocks.ask_asks {b : Blocks} {sh : Shop} (hm : b.pres.mem.sends = true) (hc : sh.current = false) :
    b.ask sh =
      { b with
        pres.askT := none, asking.answered := false
        line := if b.line.heldWaiting .table isSyncAsk then b.line else b.line.offer .table (mkFrame .syncAsk []) } := by
  have hoffers : b.pres.mem.offers = true := by
    cases h : b.pres.mem <;> simp_all [Membership.sends, Membership.offers]
  unfold Blocks.ask
  rw [if_pos (by simp [hm, hc])]
  by_cases hw : b.line.heldWaiting .table isSyncAsk = true
  · exact (if_pos hw).trans (by rw [if_pos hw]; rfl)
  · exact (if_neg hw).trans (by rw [if_neg hw]; exact if_pos hoffers)

/-- JOIN is offered where none is held (R53). -/
theorem Blocks.offerJoin_eq (b : Blocks) :
    b.offerJoin =
      { b with
        pres.mem := .joining
        line := if b.line.held .presence isJoin then b.line
          else b.line.offer .presence (mkFrame .join [byte1 b.pres.role.code]) } := by
  by_cases h : b.line.held .presence isJoin = true
  · exact (if_pos h).trans (by rw [if_pos h]; rfl)
  · exact (if_neg h).trans (by rw [if_neg h]; rfl)

/-- The listen window ends with no replica to join with: the station asks (R52, R53). -/
theorem Blocks.listenEnds_asks {b : Blocks} {sh : Shop} (hm : b.pres.mem = .outside .listen)
    (hst : sh.state = .empty ∨ sh.state = .stale) :
    b.listenEnds sh =
      { b with
        pres.listenT := none, pres.mem := .outside .asking, pres.askT := none, asking.answered := false
        line := if b.line.heldWaiting .table isSyncAsk then b.line else b.line.offer .table (mkFrame .syncAsk []) } := by
  have hc : sh.current = false := by rcases hst with h | h <;> rw [Shop.current, h] <;> rfl
  have hasks := Blocks.ask_asks (b := (b.onPres (fun p => { p with listenT := none })).setMem (.outside .asking)) rfl hc
  unfold Blocks.listenEnds
  refine (if_pos hm).trans ?_
  rcases hst with h | h <;> rw [h] <;> exact hasks

/-- It ends at a CURRENT replica: the station offers JOIN (R53, log 8). -/
theorem Blocks.listenEnds_joins {b : Blocks} {sh : Shop} (hm : b.pres.mem = .outside .listen) (hst : sh.state = .current) :
    b.listenEnds sh =
      { b with
        pres.listenT := none, pres.mem := .joining
        line := if b.line.held .presence isJoin then b.line
          else b.line.offer .presence (mkFrame .join [byte1 b.pres.role.code]) } := by
  unfold Blocks.listenEnds
  refine (if_pos hm).trans ?_
  rw [hst]
  exact Blocks.offerJoin_eq (b.onPres (fun p => { p with listenT := none }))

/-- It ends in a build: the build goes on (log 8). -/
theorem Blocks.listenEnds_builds {b : Blocks} {sh : Shop} (hm : b.pres.mem = .outside .listen) (hst : sh.state = .building) :
    b.listenEnds sh = { b with pres.listenT := none, pres.mem := .outside .building } := by
  unfold Blocks.listenEnds
  refine (if_pos hm).trans ?_
  rw [hst]
  rfl

/-- HELLO is offered by a MEMBER that holds none (R58). -/
theorem Blocks.helloExpires_eq (t : Nat) (b : Blocks) :
    b.helloExpires t =
      { b with
        pres.helloT := some (t + 1000)
        line := if b.pres.mem = .member ∧ b.line.held .presence isHello = false then
            b.line.offer .presence (mkFrame .hello [])
          else b.line } := by
  by_cases h : b.pres.mem = .member ∧ b.line.held .presence isHello = false
  · have hoffers : b.pres.mem.offers = true := by rw [h.1]; rfl
    exact (if_pos (by simp [Blocks.isMember, h])).trans (by rw [if_pos h]; exact if_pos hoffers)
  · exact (if_neg (by simpa [Blocks.isMember] using h)).trans (by rw [if_neg h]; rfl)

theorem live_iff (s : State) : live s.dev.shop s.dev.blk = true ↔ s.isLive := by
  simp [live, Blocks.isMember, Shop.current, State.isLive]

/-- A station that watches and holds no GONE of a silent member offers one (R59). -/
theorem Blocks.silent_offers {b : Blocks} {sh : Shop} {x t : Nat} (hl : live sh b = true) (hx : x ≠ b.pres.station)
    (hm : memberOf x sh.rep = true) (hh : b.line.held .presence (isGoneOf x) = false)
    (ht : Slots.get x b.pres.heard = some t) :
    b.silent x sh =
      { b with now := max b.now (t + 3000), line := b.line.offer .presence (mkFrame .gone [byte1 x]) } := by
  have hmem : b.pres.mem = .member := by simpa [live, Blocks.isMember] using (Bool.and_eq_true_iff.mp hl).1
  unfold Blocks.silent
  rw [ht]
  exact (if_pos (by simp [hl, hx, hm, hh])).trans
    (Blocks.offer_of_offers (b := b.atDeadline (t + 3000)) (by simp [hmem, Membership.offers]) _ _)

theorem Blocks.silent_stands {b : Blocks} {sh : Shop} {x : Nat}
    (h : live sh b = false ∨ x = b.pres.station ∨ memberOf x sh.rep = false ∨
      b.line.held .presence (isGoneOf x) = true) : b.silent x sh = b := by
  unfold Blocks.silent
  split
  · rfl
  · refine if_neg ?_
    rcases h with h | h | h | h <;> simp [h]

/-- Settles O37: each timer by `Blocks.onExpiry`, and what its block then does by the equation of its act. -/
theorem presenceTimersOfferTheirFrames : Obligations.PresenceTimersOfferTheirFrames := by
  intro s b
  have expires : ∀ {timer : Blocks → Option Nat} {act : Shop → Nat → Blocks → Blocks} {d : Nat} {b' : Blocks},
      timer b = some d → act s.dev.shop d (b.atDeadline d) = b' →
      s.run (Station.onBlk (fun sh x => x.onExpiry timer (act sh))) = .next { s with dev.blk := b' } :=
    fun ht ha => State.run_onBlk ((Blocks.onExpiry_running ht _).trans ha)
  have listens : ∀ {d : Nat} {b' : Blocks}, b.pres.listenT = some d → (b.atDeadline d).listenEnds s.dev.shop = b' →
      exec .listenTimerExpiry s = .next { s with dev.blk := b' } :=
    fun ht ha => expires (timer := fun x => x.pres.listenT) (act := fun sh _ x => x.listenEnds sh) ht ha
  refine ⟨fun h => ?_, fun d hd hm hst => ?_, ?_, fun h => ?_, fun d hd => ?_, fun x t hl hx hm hh ht => ?_, fun x h => ?_⟩
  · exact State.run_onBlk_stands (Blocks.onExpiry_stopped h _)
  · exact listens hd (Blocks.listenEnds_asks (b := b.atDeadline d) hm hst)
  · intro d hd ended
    exact ⟨fun hm hst => listens hd (Blocks.listenEnds_joins (b := b.atDeadline d) hm hst),
      fun hm hst => listens hd (Blocks.listenEnds_builds (b := b.atDeadline d) hm hst), fun hm => listens hd (if_neg hm)⟩
  · exact State.run_onBlk_stands (Blocks.onExpiry_stopped h _)
  · exact expires (timer := fun x => x.pres.helloT) (act := fun _ => Blocks.helloExpires) hd (Blocks.helloExpires_eq d _)
  · exact State.run_onBlk (Blocks.silent_offers ((live_iff s).mpr hl) hx hm hh ht)
  · refine State.run_onBlk_stands (Blocks.silent_stands (h.imp_left fun hl => ?_))
    rwa [← Bool.not_eq_true, live_iff]

end Sys2Proof.Machine

/-! The GONE that names this station (R62), where a frame of the presence unit waits ahead of its JOIN (R14). -/

namespace Sys2Proof.Machine

/-- A full queue: a RELEASE of the planner and eleven frames of the host, none of them in emission. -/
def fullQueue : List OutEntry :=
  { frame := mkFrame .release [], producer := .planner, order := 0, inEmission := false, again := false } ::
    (List.range 11).map (fun n =>
      { frame := mkFrame .jobOpen [], producer := .host, order := n + 1, inEmission := false, again := false })

/-- A MEMBER with a full queue, behind which a frame of the presence unit waits that is neither JOIN, GONE nor HELLO. The
presence unit offers no such frame (R53, R58, R59), but `Line.sound` and the clause's premises, which speak of the class and
of HELLO, admit one. -/
def crowded : State :=
  { State.reset with
    dev.shop.state := .current
    dev.shop.rep.members := [{ station := 15, role := .plant }]
    dev.blk.pres.mem := .member
    dev.blk.line.queue := fullQueue
    dev.blk.line.waitList := [{ producer := .presence, frame := mkFrame .jobOpen [] }] }

theorem crowded_takes : crowded.takes 1 5 [15] := ⟨⟨by decide, by decide, by decide, rfl⟩, rfl, rfl⟩

/-- At the GONE that names it the JOIN goes into the backlog behind the waiting frame (R14), which takes the slot of the
RELEASE; the JOIN comes to wait, and does not stand in the queue. -/
theorem crowded_gone {t : State} (h : exec (.gone 5 1 [15]) crowded = .next t) :
    t.dev.blk.line.queue.any (OutEntry.isOf .presence isJoin) = false := by
  cases h
  decide

/-- Refutes O38: the clause of the RELEASE's slot does not shut out a waiting frame of the presence unit of another kind
than HELLO, and `crowded` has one. -/
theorem not_ownJoinAndGoneMoveTheMembership : ¬ Obligations.OwnJoinAndGoneMoveTheMembership := by
  intro h
  obtain ⟨_, hgone⟩ := h 5 1 [15] crowded crowded_takes
  obtain ⟨_, _, hown⟩ := hgone 15 rfl rfl rfl (by decide)
  obtain ⟨t, ht, _, _, _, _, _, _, _, _, _, hdry⟩ := hown rfl rfl
  obtain ⟨_, _, hslot⟩ := hdry (fun e he => absurd he (List.not_mem_nil))
  have hin := hslot (by decide) (by decide) (by decide) (by decide)
  rw [crowded_gone ht] at hin
  exact Bool.false_ne_true hin

end Sys2Proof.Machine

/-! REJOIN (R23, R48, R64, R67): what it starts over and what the machine keeps. -/

namespace Sys2Proof.Machine

/-! ## What the machine keeps at a REJOIN (R64) -/

/-- The table unit's bookkeeping, the plant unit and the piece queue have not moved. -/
structure Blocks.WorkStands (b c : Blocks) : Prop where
  asking : c.asking = b.asking
  plant : c.plant = b.plant
  pieces : c.planner.pieces = b.planner.pieces

namespace Blocks.WorkStands

variable {a b : Blocks}

theorem refl (a : Blocks) : a.WorkStands a := ⟨rfl, rfl, rfl⟩

theorem trans {c : Blocks} (h : a.WorkStands b) (k : b.WorkStands c) : a.WorkStands c :=
  ⟨k.asking.trans h.asking, k.plant.trans h.plant, k.pieces.trans h.pieces⟩

theorem post (h : a.WorkStands b) (n : Notice) : a.WorkStands (b.post n) :=
  h.trans ⟨Blocks.post_asking n b, Blocks.post_plant n b, by rw [Blocks.post_planner]⟩

theorem onSaw (h : a.WorkStands b) (f : Saw → Saw) : a.WorkStands (b.onSaw f) := h.trans ⟨rfl, rfl, rfl⟩

theorem setValve (h : a.WorkStands b) (v : Nat) : a.WorkStands (b.setValve v) := by
  unfold Blocks.setValve
  dsimp only
  repeat' split
  all_goals exact h.trans ⟨rfl, rfl, rfl⟩

theorem bladeOff (h : a.WorkStands b) : a.WorkStands b.bladeOff := (h.onSaw _).setValve 0

theorem sawEnter (h : a.WorkStands b) (st : SawState) : a.WorkStands (b.sawEnter st) := by
  unfold Blocks.sawEnter Blocks.reportState
  split
  · exact h.onSaw _
  · exact h.trans ⟨rfl, rfl, rfl⟩

theorem enterHeld (h : a.WorkStands b) : a.WorkStands b.enterHeld := by
  have h1 := ((h.onSaw (fun w => { w with feedOn := false, feedRate := 0, pulsePeriod := 0 })).onSaw
    (fun w => { w with holdT := b.after 30000 })).sawEnter .held
  unfold Blocks.enterHeld
  dsimp only
  split
  · exact h1.setValve _
  · exact h1.bladeOff

end Blocks.WorkStands

/-- WATER_WAIT is entered, before the grant is tested (R150). -/
def Blocks.waterLost (b : Blocks) : Blocks :=
  (b.feedOff.bladeOff.onSaw (fun w =>
    { w with idleSpinT := none, holdT := if w.started then b.after 30000 else none })).sawEnter .waterWait

/-- Without water WATER_WAIT is not left at once (R150). -/
theorem Blocks.enterWaterWait_eq_waterLost {b : Blocks} (hg : b.saw.grant = 0) (hn : 0 < b.saw.need) (sh : Shop) :
    b.enterWaterWait sh = b.waterLost := by
  have hsaw : b.waterLost.saw.grant = b.saw.grant ∧ b.waterLost.saw.need = b.saw.need := by
    unfold Blocks.waterLost Blocks.bladeOff
    rw [Blocks.sawEnter_saw, Blocks.onSaw_saw, Blocks.setValve_saw]
    exact ⟨rfl, rfl⟩
  refine if_neg ?_
  show ¬ atLeast60 b.waterLost.saw.grant b.waterLost.saw.need = true
  rw [hsaw.1, hsaw.2, hg, atLeast60_zero hn]
  exact Bool.false_ne_true

/-- All that a grant of 0 can do to the sequencer (R149, R150, R153). -/
theorem Blocks.grantMoves_dry_cases {b : Blocks} (hg : b.saw.grant = 0) (hlaw : b.saw.planLaw = true) (sh : Shop) :
    b.grantMoves sh = b ∨ b.grantMoves sh = b.waterLost ∨ b.grantMoves sh = b.enterHeld ∨ b.grantMoves sh = b.bladeOff ∨
      b.grantMoves sh = b.bladeOff.onSaw (fun w => { w with idleSpinT := none }) := by
  have need : b.saw.st ≠ .idle → 0 < b.saw.need := Saw.need_pos hlaw
  have h60 : b.saw.st ≠ .idle → ¬ atLeast60 b.saw.grant b.saw.need = true := fun hst => by
    simp [hg, atLeast60_zero (need hst)]
  have h25 : b.saw.st ≠ .idle → ¬ atLeast25 b.saw.grant b.saw.need = true := fun hst => by
    simp [hg, atLeast25_zero (need hst)]
  unfold Blocks.grantMoves
  cases hst : b.saw.st with
  | idle | loadWait | finishing | faulted => exact Or.inl rfl
  | waterWait => exact Or.inl (if_neg (h60 (by simp [hst])))
  | spinup =>
    have hst' : b.saw.st ≠ .idle := by simp [hst]
    exact Or.inr (Or.inl ((if_neg (h60 hst')).trans (Blocks.enterWaterWait_eq_waterLost hg (need hst') sh)))
  | cutting => exact Or.inr (Or.inr (Or.inl (if_neg (h60 (by simp [hst])))))
  | held =>
    have hst' : b.saw.st ≠ .idle := by simp [hst]
    exact Or.inr (Or.inr (Or.inr (Or.inl ((if_neg (h60 hst')).trans (if_neg (h25 hst'))))))
  | indexWait =>
    dsimp only
    split
    · exact Or.inr (Or.inr (Or.inr (Or.inr (if_neg (h25 (by simp [hst]))))))
    · exact Or.inl rfl

theorem Blocks.grantMoves_dry_workStands {b : Blocks} (hg : b.saw.grant = 0) (hlaw : b.saw.planLaw = true) (sh : Shop) :
    b.WorkStands (b.grantMoves sh) := by
  have h := Blocks.WorkStands.refl b
  rcases Blocks.grantMoves_dry_cases hg hlaw sh with e | e | e | e | e <;> rw [e]
  · exact h
  · exact (((h.onSaw _).bladeOff).onSaw _).sawEnter _
  · exact h.enterHeld
  · exact h.bladeOff
  · exact h.bladeOff.onSaw _

/-- The report of a replica that is not CURRENT, which grants nothing (R100), leaves the work alone. -/
theorem Blocks.grantReport_dry_workStands {b : Blocks} {sh : Shop} (hc : sh.current = false)
    (hlaw : b.saw.planLaw = true) (before : Nat) : b.WorkStands (b.grantReport before sh) := by
  have hgrant : effGrant sh b = 0 := by simp [effGrant, hc]
  have hset : b.WorkStands (b.setGrant sh 0) := by
    unfold Blocks.setGrant
    split
    · exact Blocks.WorkStands.refl b
    · exact ((Blocks.WorkStands.refl b).onSaw _).trans
        (Blocks.grantMoves_dry_workStands (b := b.onSaw (fun w => { w with grant := 0 })) rfl hlaw sh)
  unfold Blocks.grantReport
  rw [hgrant]
  split
  · exact Blocks.WorkStands.refl b
  · exact hset.post _

theorem Blocks.claimFails_workStands {sh : Shop} (hc : sh.current = false) (p : Plan) (b : Blocks) :
    b.WorkStands (b.claimFails sh p) := by
  unfold Blocks.claimFails Blocks.planEnds Blocks.costPlanEnded Blocks.reportChecks Blocks.search live
  simp only [hc, Bool.and_false, Bool.false_and]
  exact ⟨rfl, rfl, rfl⟩

/-- A producer's answer to DISCARDED returns no piece and asks for nothing (R127, R135, R136). -/
theorem Blocks.discarded_workStands {sh : Shop} (hc : sh.current = false) (w : Waiter) (b : Blocks) :
    b.WorkStands (b.discarded sh w) := by
  have h := Blocks.WorkStands.refl b
  unfold Blocks.discarded
  split
  · exact h.post _
  · exact h.post _
  · exact h.post _
  · unfold Blocks.plannerDiscarded
    repeat' split
    · exact Blocks.claimFails_workStands hc _ b
    · exact h
    · exact ⟨rfl, rfl, rfl⟩
    · exact ⟨rfl, rfl, rfl⟩
    · exact h
  · exact ⟨rfl, rfl, rfl⟩
  · exact h

theorem Blocks.discardAll_workStands {sh : Shop} (hc : sh.current = false) (b : Blocks) :
    b.WorkStands (b.discardAll sh) := by
  have hrun : ∀ (l : List Waiter) (c : Blocks), c.WorkStands (l.foldl (fun x w => x.discarded sh w) c) := by
    intro l
    induction l with
    | nil => exact Blocks.WorkStands.refl
    | cons w rest ih => exact fun c => (Blocks.discarded_workStands hc w c).trans (ih _)
  have hempty : b.WorkStands { b with line := b.line.emptied } := ⟨rfl, rfl, rfl⟩
  exact hempty.trans (hrun _ _)

/-- What the blocks of a REJOIN keep of the work, and of the asking (R48, R64). -/
theorem Blocks.rejoining_work (b : Blocks) :
    b.rejoining.asking = { b.asking with count := 0, failed := false, answered := false, stream := none } ∧
      b.rejoining.plant = b.plant ∧ b.rejoining.planner.pieces = b.planner.pieces := by
  have hcleared : ∀ c : Blocks,
      c.rejoinCleared.asking = { c.asking with count := 0, failed := false, answered := false, stream := none } ∧
        c.rejoinCleared.plant = c.plant ∧ c.rejoinCleared.planner.pieces = c.planner.pieces := fun _ => ⟨rfl, rfl, rfl⟩
  obtain ⟨ha, hp, hq⟩ := hcleared (b.listening.discardAll Shop.emptied)
  have h := Blocks.discardAll_workStands (sh := Shop.emptied) rfl b.listening
  unfold Blocks.rejoining
  rw [ha, hp, hq, h.asking, h.plant, h.pieces]
  exact ⟨rfl, rfl, rfl⟩

/-! ## The station started over (R23, R48, R64, R67) -/

/-- From the station `d` to the station `e`, a REJOIN has taken effect. -/
structure Station.StartedOver (d e : Station) : Prop where
  shop : e.shop = Shop.emptied
  queue : e.blk.line.queue = []
  waitList : e.blk.line.waitList = []
  backlog : e.blk.line.backlog = []
  rx : e.blk.line.rx = d.blk.line.rx
  yielding : e.blk.line.yielding = d.blk.line.yielding
  pres : e.blk.pres =
    { d.blk.pres with mem := .outside .listen, listenT := some (d.blk.now + 1500), askT := none, helloT := none }
  asking : e.blk.asking = { d.blk.asking with count := 0, failed := false, answered := false, stream := none }
  rejoin : e.blk.host.rejoinPending = false
  cursor : e.blk.host.cursor = d.blk.host.cursor
  pieces : e.blk.planner.pieces = d.blk.planner.pieces
  enc : e.blk.saw.enc = d.blk.saw.enc
  meas : Meas.SameReadings d.blk.meas e.blk.meas
  plant : e.blk.plant = d.blk.plant
  now : e.blk.now = d.blk.now

theorem Station.rejoinNow_startedOver {d : Station} (hlaw : d.blk.saw.planLaw = true) : d.StartedOver d.rejoinNow := by
  have htold := d.blk.rejoining_told
  have hlaw' : d.blk.rejoining.saw.planLaw = true := htold.saw ▸ hlaw
  have hgone := Station.rejoinNow_rejoined hlaw
  have hnews := Tells.rejoinNow d
  have hgrant := (Moves.refl true d.blk.rejoining).grantReport (effGrant d.shop d.blk) Shop.emptied
  have hdry := Blocks.grantReport_dry (sh := Shop.emptied) rfl hlaw' (effGrant d.shop d.blk)
  obtain ⟨hasking, hplant, hpieces⟩ := d.blk.rejoining_work
  have hwork := Blocks.grantReport_dry_workStands (sh := Shop.emptied) rfl hlaw' (effGrant d.shop d.blk)
  rw [Station.rejoinNow_eq] at hgone hnews ⊢
  exact
    { shop := rfl
      queue := hgone.queue
      waitList := hgone.waitList
      backlog := hgone.backlog
      rx := hnews.wire.rx
      yielding := hnews.wire.yielding
      pres := hdry.pres.trans htold.pres
      asking := hwork.asking.trans hasking
      rejoin := hgone.rejoin
      cursor := hnews.cursor
      pieces := hwork.pieces.trans hpieces
      enc := hgrant.enc.trans (congrArg Saw.enc htold.saw)
      meas := hnews.meas
      plant := hwork.plant.trans hplant
      now := hnews.now }

/-! ## REJOIN as a request and as its effect -/

theorem exec_rejoin {s : State} (h : s.asked) : exec .rejoin s = .next { s with dev := s.dev.askRejoin.sent } := by
  have hreq : s.dev.request Station.askRejoin = s.dev.askRejoin.sent := (if_pos h.1).trans (if_neg h.2)
  exact congrArg (fun d => Host.Outcome.next { s with dev := d }) hreq

/-- The station that has been asked to rejoin (R64). -/
def Station.rejoinAsked (d : Station) : Station := { d with blk := d.blk.onHost (fun h => { h with rejoinPending := true }) }

theorem Station.askRejoin_mute {d : Station} (h : d.blk.pres.mem = .mute) : d.askRejoin = d.refuses .wrongState := if_pos h

theorem Station.askRejoin_of_not_mute {d : Station} (h : d.blk.pres.mem ≠ .mute) :
    d.askRejoin = { dev := d.rejoinAsked.settleRejoin, status := .ok, payload := [], notice := false } := if_neg h

/-- Settles O39: `Station.rejoinNow_startedOver` is the effect; the request has it at once, or leaves it pending. -/
theorem rejoinStartsTheStationOver : Obligations.RejoinStartsTheStationOver := by
  intro s b startedOver replied hlaw
  have starts : ∀ {t : State}, t.pending = s.pending → s.dev.StartedOver t.dev → startedOver t := fun hp h =>
    ⟨hp, h.shop, h.queue, h.waitList, h.backlog, h.rx, h.yielding, h.pres, congrArg Asking.count h.asking,
      congrArg Asking.failed h.asking, congrArg Asking.stream h.asking, h.asking ▸ rfl,
      h.asking ▸ rfl, h.rejoin, h.cursor, h.pieces, h.enc, h.meas.sampleT, h.meas.maHist,
      congrArg PlantUnit.band h.plant, congrArg PlantUnit.standby h.plant, h.now⟩
  refine ⟨fun hr he => ?_, fun h => ?_, fun ha hm => ?_, fun ha hm he ht => ?_, fun ha hm h => ?_⟩
  · have hnow : (s.dev.blk.host.rejoinPending && s.dev.blk.line.emitting.isNone) = true := by
      rw [show s.dev.blk.host.rejoinPending = true from hr, show s.dev.blk.line.emitting = none from he]
      rfl
    rw [exec_rejoinTakesEffect, State.run_eq, if_pos hnow]
    exact ⟨_, rfl, starts rfl (Station.rejoinNow_startedOver hlaw)⟩
  · rw [exec_rejoinTakesEffect]
    refine State.run_stands (if_neg ?_)
    rcases h with h | h
    · simp [show s.dev.blk.host.rejoinPending = false from h]
    · simp [← Option.not_isSome, show s.dev.blk.line.emitting.isSome = true from h]
  · rw [exec_rejoin ha, Station.askRejoin_mute hm]
    rfl
  · have hnow : s.dev.rejoinAsked.settleRejoin = s.dev.rejoinAsked.rejoinNow :=
      Station.settleRejoin_waiting rfl ((Line.emissions_eq_zero_iff _).mpr he) ht
    rw [exec_rejoin ha, Station.askRejoin_of_not_mute hm, hnow]
    have h := Station.rejoinNow_startedOver (d := s.dev.rejoinAsked) hlaw
    exact ⟨_, rfl, starts rfl { h with }, rfl, rfl⟩
  · have hwait : s.dev.rejoinAsked.settleRejoin = s.dev.rejoinAsked := by
      refine if_neg ?_
      rcases h with h | h
      · simp [← Option.not_isSome, Station.rejoinAsked, show s.dev.blk.line.emitting.isSome = true from h]
      · simp [← Option.not_isSome, Station.rejoinAsked, show s.dev.blk.line.txDone.isSome = true from h]
    rw [exec_rejoin ha, Station.askRejoin_of_not_mute hm, hwait]
    rfl

end Sys2Proof.Machine

/-! A change frame that a CURRENT replica takes (R12, R19, R26): what it leaves alone, its own sending completed or a
duplicate's head before it. -/

namespace Sys2Proof.Machine

/-! ## What a taken frame leaves alone, block by block -/

/-- From the blocks `a` to the blocks `b`, what `KeptByFrames` names has stood, but for what a taken frame does to the
receiver (R10). -/
structure Blocks.Kept (a b : Blocks) : Prop where
  now : b.now = a.now
  draws : b.draws = a.draws
  selLow : b.selLow = a.selLow
  stop : b.stop = a.stop
  straps : b.pres.station = a.pres.station ∧ b.pres.role = a.pres.role ∧ b.pres.rate = a.pres.rate
  line : b.line.inBreak = a.line.inBreak ∧ b.line.halting = a.line.halting ∧ b.line.restT = a.line.restT ∧
    b.line.lastDiscard = a.line.lastDiscard
  port : b.host.exchange = a.host.exchange ∧ b.host.reply = a.host.reply ∧ b.host.cursor = a.host.cursor ∧
    b.host.planPart = a.host.planPart
  meas : Meas.SameReadings a.meas b.meas
  levels : b.plant.band = a.plant.band ∧ b.plant.turbid = a.plant.turbid ∧
    b.plant.correction = a.plant.correction ∧ b.plant.published = a.plant.published
  enc : b.saw.enc = a.saw.enc
  clockT : b.cost.clockT = a.cost.clockT

/-- The receiver waits for idle after a taken frame (R10). -/
structure Line.Waits (l : Line) : Prop where
  rx : l.rx = .waitIdle
  idle : l.idle = false
  badStop : l.badStop = false

theorem Line.Waits.wire {l m : Line} (h : l.Waits) (w : Line.SameWire l m) : m.Waits :=
  ⟨w.rx.trans h.rx, w.idle.trans h.idle, w.badStop.trans h.badStop⟩

namespace Blocks.Kept

variable {a b c : Blocks}

theorem refl (a : Blocks) : a.Kept a :=
  ⟨rfl, rfl, rfl, rfl, ⟨rfl, rfl, rfl⟩, ⟨rfl, rfl, rfl, rfl⟩, ⟨rfl, rfl, rfl, rfl⟩, Meas.SameReadings.refl _,
    ⟨rfl, rfl, rfl, rfl⟩, rfl, rfl⟩

theorem trans (h : a.Kept b) (k : b.Kept c) : a.Kept c := by
  obtain ⟨hs, hr, ht⟩ := h.straps
  obtain ⟨hb, hh, hrest, hd⟩ := h.line
  obtain ⟨he, hy, hc, hp⟩ := h.port
  obtain ⟨h1, h2, h3, h4⟩ := h.levels
  obtain ⟨ks, kr, kt⟩ := k.straps
  obtain ⟨kb, kh, krest, kd⟩ := k.line
  obtain ⟨ke, ky, kc, kp⟩ := k.port
  obtain ⟨k1, k2, k3, k4⟩ := k.levels
  exact
    ⟨k.now.trans h.now, k.draws.trans h.draws, k.selLow.trans h.selLow, k.stop.trans h.stop,
      ⟨ks.trans hs, kr.trans hr, kt.trans ht⟩, ⟨kb.trans hb, kh.trans hh, krest.trans hrest, kd.trans hd⟩,
      ⟨ke.trans he, ky.trans hy, kc.trans hc, kp.trans hp⟩, h.meas.trans k.meas,
      ⟨k1.trans h1, k2.trans h2, k3.trans h3, k4.trans h4⟩, k.enc.trans h.enc, k.clockT.trans h.clockT⟩

/-- News leave all of it alone (R28). -/
theorem of_news {n : Bool} (k : Tells a b) (m : Moves n a b) : a.Kept b :=
  ⟨k.now, k.draws, k.selLow, k.stop, ⟨k.station, k.role, k.rate⟩,
    ⟨k.wire.inBreak, k.wire.halting, k.wire.restT, k.wire.lastDiscard⟩, ⟨k.exchange, k.reply, k.cursor, k.planPart⟩,
    k.meas, ⟨m.band, m.turbid, m.correction, m.published⟩, m.enc, m.clockT⟩

/-- A change of the line controller that leaves its breaks, its rest and its last discard. -/
theorem onLine {f : Line → Line} (h1 : (f b.line).inBreak = b.line.inBreak) (h2 : (f b.line).halting = b.line.halting)
    (h3 : (f b.line).restT = b.line.restT) (h4 : (f b.line).lastDiscard = b.line.lastDiscard) : b.Kept (b.onLine f) :=
  { Blocks.Kept.refl b with line := ⟨h1, h2, h3, h4⟩ }

end Blocks.Kept

/-- What no taken frame changes, from the blocks and the receiver. -/
theorem Blocks.Kept.byFrames {s t : State} (h : s.dev.blk.Kept t.dev.blk) (hp : t.pending = s.pending)
    (hw : t.dev.blk.line.Waits) : KeptByFrames s t := by
  obtain ⟨hb, hh, hrest, hd⟩ := h.line
  exact
    { pending := hp
      clock := ⟨h.now, h.draws⟩
      pins := ⟨h.selLow, h.stop⟩
      straps := h.straps
      line := ⟨hw.rx, hw.idle, hb, hh, hrest, hd, hw.badStop⟩
      port := h.port
      readings := ⟨h.meas.sampleT, h.meas.scan, h.meas.ma, h.meas.mb, h.meas.maHist, h.meas.mbHist, h.meas.missed,
        h.meas.windowT, h.meas.pulses, h.meas.window⟩
      levels := h.levels
      counts := h.enc
      clocks := h.clockT }

/-! ## The own sending that a taken frame completes (R12, R19) -/

theorem Moves.snapCompleted {n : Bool} {a b : Blocks} (h : Moves n a b) (sh : Shop) (f : Frame) :
    Moves n a (b.snapCompleted sh f) := by
  unfold Blocks.snapCompleted
  repeat' split
  · exact h
  · exact h.setStream _
  · exact (h.setStream _).offerSnap sh
  · exact h

theorem Blocks.ownCompleted_kept (b : Blocks) : b.Kept b.ownCompleted := by
  unfold Blocks.ownCompleted
  split
  · exact { Blocks.Kept.refl b with straps := ⟨rfl, rfl, rfl⟩ }
  · exact Blocks.Kept.refl b

theorem Blocks.completes_kept (sh : Shop) (b : Blocks) : b.Kept (b.completes sh) := by
  have hwire := (Line.settle_filled none { b.line with queue := b.line.queue.filter (fun e => !e.inEmission), tx := [] }).wire
  unfold Blocks.completes
  split
  · exact Blocks.Kept.refl b
  · next e _ =>
    dsimp only
    have h : b.Kept ((b.onLine (fun l => { l.dropEmitted with
        failures := 0, yielding := true
        txDone := if handedOn b.pres.station e.frame then some e.frame.kind else none })).ownCompleted) :=
      (Blocks.Kept.onLine hwire.inBreak hwire.halting hwire.restT hwire.lastDiscard).trans (Blocks.ownCompleted_kept _)
    split
    · unfold Blocks.askSent
      split
      · exact h
      · exact h.trans (.of_news (Tells.refl _).restartAskT (Moves.refl true _).restartAskT)
    · exact h.trans (.of_news ((Tells.refl _).snapCompleted sh _) ((Moves.refl true _).snapCompleted sh _))
    all_goals exact h

theorem Station.completeFor_shop (f : Taken) (d : Station) : (d.completeFor f).shop = d.shop := by
  unfold Station.completeFor
  repeat' split
  all_goals rfl

theorem Station.completeFor_kept (f : Taken) (d : Station) : d.blk.Kept (d.completeFor f).blk := by
  unfold Station.completeFor
  repeat' split
  · exact Blocks.completes_kept d.shop d.blk
  · exact Blocks.Kept.refl _
  · exact Blocks.Kept.refl _

/-! ## The entry into MUTE (R22, R63), as news -/

namespace Moves

variable {n : Bool} {a b : Blocks}

theorem hear (h : Moves n a b) (s : Nat) : Moves n a (b.hear s) := (h.onPres rfl).withdraw _ _

/-- A change of the host port that leaves the notices. -/
theorem onHost (h : Moves n a b) {x : HostPort} (hx : x.notices = b.host.notices) : Moves n a { b with host := x } :=
  h.trans ⟨rfl, rfl, rfl, rfl, rfl, rfl, by rw [hx], id, fun _ => rfl, fun _ => rfl, fun _ => rfl, id⟩

theorem reportDiscarded (h : Moves n a b) (job : Nat) : Moves n a (b.onCost (CostUnit.reportDiscarded job)) := by
  refine h.onCost ?_
  unfold CostUnit.reportDiscarded
  split <;> rfl

theorem discarded (h : Moves n a b) (sh : Shop) (w : Waiter) : Moves n a (b.discarded sh w) := by
  unfold Blocks.discarded
  split
  · exact h.post _
  · exact h.post _
  · exact h.post _
  · unfold Blocks.plannerDiscarded
    repeat' split
    · exact h.claimFails sh _
    · exact h
    · exact h.onPlan _
    · exact h.onPlan _
    · exact h
  · exact h.reportDiscarded _
  · exact h

theorem emptied (h : Moves n a b) : Moves n a { b with line := b.line.emptied } :=
  h.trans ⟨rfl, rfl, rfl, rfl, rfl, rfl, List.prefix_refl _, fun _ => rfl, fun _ => rfl, fun _ => rfl, fun _ => rfl, id⟩

theorem discardAll (h : Moves n a b) (sh : Shop) : Moves n a (b.discardAll sh) :=
  foldl (fun w _ k => k.discarded sh w) b.line.frames h.emptied

theorem setMute (h : Moves true a b) :
    Moves true a (b.onPres (fun p => { p with mem := .mute, listenT := none, askT := none, helloT := none })) :=
  h.trans ⟨rfl, rfl, rfl, rfl, rfl, rfl, List.prefix_refl _, id, fun x => absurd x (by decide), fun _ => rfl,
    fun _ => rfl, id⟩

theorem enterMute (h : Moves true a b) (sh : Shop) : Moves true a (b.enterMute sh) :=
  ((h.setMute.discardAll sh).setStream none).onHost rfl

theorem duplicate (h : Moves true a b) (sh : Shop) : Moves true a (b.duplicate sh) := by
  unfold Blocks.duplicate
  split
  · exact h.enterMute sh
  · exact h.enterMute sh
  all_goals exact h

theorem tellDuplicate (h : Moves n a b) (own : Bool) (f : Taken) (before : Blocks) :
    Moves n a (Blocks.tellDuplicate own f before b) := by
  unfold Blocks.tellDuplicate
  split
  · exact h.post _
  · exact h

end Moves

/-! ## The head of a taken frame -/

theorem Blocks.peerHead_kept (f : Taken) (sh : Shop) (b : Blocks) :
    b.Kept (b.peerHead f sh) ∧ (b.line.Waits → (b.peerHead f sh).line.Waits) := by
  have hyield : ∃ c : Blocks, (if b.line.emitting.isNone then b.onLine (fun l => { l with yielding := false }) else b) = c ∧
      b.Kept c ∧ (b.line.Waits → c.line.Waits) := by
    refine ⟨_, rfl, ?_⟩
    split
    · exact ⟨.onLine rfl rfl rfl rfl, fun h => ⟨h.rx, h.idle, h.badStop⟩⟩
    · exact ⟨.refl b, id⟩
  obtain ⟨c, hc, hkept, hwaits⟩ := hyield
  have hk : Tells c (b.peerHead f sh) ∧ Moves true c (b.peerHead f sh) := by
    unfold Blocks.peerHead
    rw [hc]
    dsimp only
    split
    · exact ⟨((Tells.refl c).hear f.sender).duplicate sh, ((Moves.refl true c).hear f.sender).duplicate sh⟩
    · exact ⟨(Tells.refl c).hear f.sender, (Moves.refl true c).hear f.sender⟩
  exact ⟨hkept.trans (.of_news hk.1 hk.2), fun h => (hwaits h).wire hk.1.wire⟩

theorem Station.headTaken_shop (f : Taken) (d : Station) : (d.headTaken f).shop = d.shop := Station.completeFor_shop f d

theorem Station.headTaken_kept (f : Taken) (d : Station) :
    d.blk.Kept (d.headTaken f).blk ∧ (d.headTaken f).blk.line.Waits := by
  have htaken : (d.completeFor f).blk.Kept ((d.completeFor f).blk.onLine Line.frameTaken) := .onLine rfl rfl rfl rfl
  have h := (Station.completeFor_kept f d).trans htaken
  have hw : ((d.completeFor f).blk.onLine Line.frameTaken).line.Waits := ⟨rfl, rfl, rfl⟩
  unfold Station.headTaken
  dsimp only
  split
  · exact ⟨h, hw⟩
  · obtain ⟨hk, hkw⟩ := Blocks.peerHead_kept f (d.completeFor f).shop ((d.completeFor f).blk.onLine Line.frameTaken)
    exact ⟨h.trans hk, hkw hw⟩

/-! ## A frame off the line, and a change frame that a CURRENT replica takes (R26) -/

theorem within_sender {x : BitVec 4} (h : x ≠ 0) : within 1 15 x.toNat = true := by
  have h1 : x.toNat ≠ 0 := fun e => h (BitVec.eq_of_toNat_eq e)
  have := x.isLt
  exact (within_iff _ _ _).mpr ⟨by omega, by omega⟩

/-- A broadcast frame that the station hears is taken (R10, log 1). -/
theorem frameIn_takes {k : Kind} {sender : BitVec 4} {g : Word16} {p : List Byte} {s : State} (hh : s.hears sender p)
    (hk : k ≠ .snap) :
    s.frameIn k sender 0 g p = .next
      { s with dev := s.dev.takeFrame { kind := k, sender := sender.toNat, target := 0, gen := g, payload := p } } := by
  obtain ⟨hm, h0, hp, _⟩ := hh
  have hok : Taken.ok { kind := k, sender := sender.toNat, target := 0, gen := g, payload := p } = true := by
    simp [Taken.ok, within_sender h0, hp, hk]
  have harr : s.dev.frameArrives { kind := k, sender := sender.toNat, target := 0, gen := g, payload := p } =
      s.dev.takeFrame { kind := k, sender := sender.toNat, target := 0, gen := g, payload := p } :=
    (if_pos (Blocks.onAir_of hm)).trans ((if_pos hok).trans (if_neg (fun h => hk h.1)))
  exact congrArg (fun d => Host.Outcome.next { s with dev := d }) harr

/-- A frame taken with no REJOIN waiting: its kind acts after its head, and a duplicate is told (R12, R22). -/
theorem Station.takeFrame_unpended {d : Station} (hr : d.blk.host.rejoinPending = false) (f : Taken) :
    d.takeFrame f =
      { (d.headTaken f).takeKind ((d.completeFor f).blk.isOwn f) f with
        blk := Blocks.tellDuplicate ((d.completeFor f).blk.isOwn f) f ((d.completeFor f).blk.onLine Line.frameTaken)
          ((d.headTaken f).takeKind ((d.completeFor f).blk.isOwn f) f).blk } := by
  refine (Station.takeFrame_eq f d).trans (Station.settleRejoin_of_not_pending ?_)
  have hk := ((Keeps.headTaken f d).told (Tells.takeKind ((d.completeFor f).blk.isOwn f) f (d.headTaken f))).told
    ((Tells.refl _).tellDuplicate ((d.completeFor f).blk.isOwn f) f ((d.completeFor f).blk.onLine Line.frameTaken))
  refine Bool.eq_false_iff.mpr (fun h => ?_)
  rw [hk.rejoin h] at hr
  exact Bool.false_ne_true hr.symm

theorem Station.takeKind_change {f : Taken} (hk : f.kind.isChange = true) (own : Bool) (d : Station) :
    d.takeKind own f = d.takeChange own f := by
  unfold Station.takeKind
  cases h : f.kind with
  | rebase | hello | syncAsk | snap =>
    rw [h] at hk
    exact absurd hk Bool.false_ne_true
  | _ => rfl

/-- What a CURRENT replica applies (R26), of a frame judged against it. -/
def Applied.of (own : Bool) (f : Taken) (r : Replica) : Applied :=
  { own := own, frame := f, change := parseChange f.kind f.payload
    out := judgeFrame (Ctx.whole f.gen) f.sender f.kind f.payload r, before := r }

/-- A change frame taken makes the replica what its judgment says, where the news of it moves what news may (R26, R28). -/
theorem becomes_of_judged {k : Kind} {sender : BitVec 4} {g : Word16} {p : List Byte} {s : State}
    (ht : s.takes g sender p) (hk : k.isChange = true)
    (hm : ∀ (own : Bool) (grant : Nat) (sh : Shop) (b : Blocks),
      Moves true b (b.tellAll (.of own { kind := k, sender := sender.toNat, target := 0, gen := g, payload := p }
        s.dev.shop.rep) grant sh)) :
    s.becomes g (judgeFrame (Ctx.whole g) sender.toNat k p s.dev.shop.rep).rep (s.frameIn k sender 0 g p) := by
  obtain ⟨hh, hcur, hg⟩ := ht
  have hsnap : k ≠ .snap := by rintro rfl; exact Bool.false_ne_true hk
  rw [frameIn_takes hh hsnap, Station.takeFrame_unpended hh.2.2.2]
  generalize hf : ({ kind := k, sender := sender.toNat, target := 0, gen := g, payload := p } : Taken) = f at *
  generalize (s.dev.completeFor f).blk.isOwn f = own
  obtain ⟨hkept, hwaits⟩ := Station.headTaken_kept f s.dev
  have hshop := Station.headTaken_shop f s.dev
  have happly : (s.dev.headTaken f).takeKind own f = (s.dev.headTaken f).apply own f := by
    rw [Station.takeKind_change (by rw [← hf]; exact hk)]
    unfold Station.takeChange
    rw [hshop, hcur]
    exact if_pos (by rw [← hf]; exact hg)
  rw [happly]
  have hnews := (Tells.apply own f (s.dev.headTaken f)).tellDuplicate own f ((s.dev.completeFor f).blk.onLine Line.frameTaken)
  have hmoves : Moves true (s.dev.headTaken f).blk ((s.dev.headTaken f).apply own f).blk := by
    have := hm own (effGrant (s.dev.headTaken f).shop (s.dev.headTaken f).blk)
      { (s.dev.headTaken f).shop with
        gen := f.gen
        rep := (judgeFrame (Ctx.whole f.gen) f.sender f.kind f.payload (s.dev.headTaken f).shop.rep).rep }
      (s.dev.headTaken f).blk
    rw [← hshop] at this
    exact this
  refine ⟨_, rfl, ?_, ?_⟩
  · show Shop.mk _ _ _ _ = _
    rw [← hf, Station.headTaken_shop]
  · exact (hkept.trans (.of_news hnews (hmoves.tellDuplicate _ _ _))).byFrames rfl (hwaits.wire hnews.wire)

end Sys2Proof.Machine

/-! JOIN and GONE (R55, R61, R78, R95, R169): what the blocks are told, and the member set with stock, ledger and jobs. -/

namespace Sys2Proof.Machine

/-! ## What the blocks are told of a JOIN and a GONE (R28, R54, R60 to R62) -/

namespace Moves

variable {n : Bool} {a b : Blocks}

theorem plantAbsent (h : Moves true a b) (before : Replica) (sh : Shop) : Moves true a (b.plantAbsent before sh) := by
  unfold Blocks.plantAbsent
  split
  · exact h.leaveStandby.ledgerReport sh
  · exact h

theorem withdrawZero (h : Moves n a b) (job : Nat) : Moves n a (b.withdrawZero job) := by
  unfold Blocks.withdrawZero
  dsimp only
  repeat' split
  · exact (h.withdraw _ _).onCost rfl
  · exact h.withdraw _ _
  · exact h

theorem dropZeros (h : Moves n a b) (before after : Replica) : Moves n a (b.dropZeros before after) := by
  refine foldl (fun job _ k => ?_) _ h
  split
  · exact k.withdrawZero job
  · exact k

theorem postTallies (h : Moves n a b) (before after : Replica) : Moves n a (b.postTallies before after) := by
  unfold Blocks.postTallies
  split
  · exact foldl (fun _ _ k => k.post _) _ h
  · exact h

theorem costAfter (h : Moves n a b) (before : Replica) (sh : Shop) : Moves n a (b.costAfter before sh) :=
  (((h.onCost rfl).dropZeros before sh.rep).reportChecks sh).postTallies before sh.rep

theorem streamNews (h : Moves n a b) (x : Applied) (sh : Shop) : Moves n a (b.streamNews x sh) := by
  unfold Blocks.streamNews
  split <;> exact h.streamAfter _ _ sh

theorem leaveNews (h : Moves true a b) (x : Applied) (sh : Shop) : Moves true a (b.leaveNews x sh) := by
  unfold Blocks.leaveNews
  split
  · exact (h.plantAbsent _ sh).costAfter _ sh
  · exact h

theorem setSerial (h : Moves n a b) (sh : Shop) : Moves n a (b.setSerial sh) :=
  h.same rfl rfl rfl rfl rfl rfl rfl rfl

theorem plantLive (h : Moves true a b) (sh : Shop) : Moves true a (b.plantLive sh) := by
  unfold Blocks.plantLive
  repeat' split
  · exact h.enterStandby sh
  · exact h.plantCompare sh
  · exact h

theorem offerReclaim (h : Moves n a b) : Moves n a b.offerReclaim := by
  unfold Blocks.offerReclaim
  split
  · exact h
  · exact h.offer _ _

theorem plannerEnters (h : Moves n a b) (sh : Shop) : Moves n a (b.plannerEnters sh) := by
  unfold Blocks.plannerEnters
  repeat' split
  · exact h.search sh
  · exact h
  · exact (h.onPlan _).offerReclaim
  · exact h

theorem setMember (h : Moves true a b) (t : Option Nat) :
    Moves true a (b.onPres (fun p => { p with mem := .member, helloT := t })) :=
  (h.setMem .member).onPres (f := fun p => { p with helloT := t }) rfl

theorem enterMember (h : Moves true a b) (sh : Shop) : Moves true a (b.enterMember sh) :=
  ((((((h.setMember _).setSerial sh).beginWatch sh).post _).plantLive sh).plannerEnters sh).askCheck sh

theorem presenceNews (h : Moves true a b) (x : Applied) (sh : Shop) : Moves true a (b.presenceNews x sh) := by
  unfold Blocks.presenceNews
  split
  · split
    · exact h.enterMember sh
    · exact h
  · next s _ =>
    have hw : Moves true a (if x.own then b else b.withdraw .presence (isGoneOf s)) := by
      split
      · exact h
      · exact h.withdraw _ _
    split
    · dsimp only
      split
      · exact hw.rejoinShop _
      · exact hw
    · exact h
  · exact h

end Moves

/-- A change frame of the member set, or one whose payload fails: JOIN and GONE (R55, R61). -/
def Applied.OfMembers (a : Applied) : Prop :=
  a.out.news = [] ∧ (a.change = none ∨ (∃ r, a.change = some (.join r)) ∨ ∃ s, a.change = some (.gone s))

/-- A JOIN or a GONE is no news to the sequencer, to the figures, to the planner's frames and to the host port (R28). -/
theorem Blocks.tellAll_ofMembers {a : Applied} (h : a.OfMembers) (grant : Nat) (sh : Shop) (b : Blocks) :
    b.tellAll a grant sh =
      ((((((b.streamNews a sh).grantReport grant sh).leaveNews a sh).presenceNews a sh).plantNews a sh).costNews a sh) := by
  obtain ⟨hnews, hc⟩ := h
  have hsaw : ∀ x : Blocks, x.sawNews a sh = x := fun x => by
    unfold Blocks.sawNews
    rcases hc with e | ⟨r, e⟩ | ⟨s, e⟩ <;> rw [e]
  have hfigures : ∀ x : Blocks, x.figuresNews a = x := fun x => by
    unfold Blocks.figuresNews
    rcases hc with e | ⟨r, e⟩ | ⟨s, e⟩ <;> rw [e]
  have hplanner : ∀ x : Blocks, x.plannerNews a sh = x := fun x => by
    unfold Blocks.plannerNews
    rw [hnews]
    rcases hc with e | ⟨r, e⟩ | ⟨s, e⟩ <;> rw [e] <;> exact ite_self x
  have hhost : ∀ x : Blocks, x.hostNews a = x := fun x => by
    unfold Blocks.hostNews
    rcases hc with e | ⟨r, e⟩ | ⟨s, e⟩ <;> rw [e] <;> exact ite_self x
  unfold Blocks.tellAll
  dsimp only
  rw [hsaw, hfigures, hplanner, hhost]

theorem Moves.tellAll_ofMembers {x : Applied} (h : x.OfMembers) (grant : Nat) (sh : Shop) (b : Blocks) :
    Moves true b (b.tellAll x grant sh) := by
  have hp := (((((Moves.refl true b).streamNews x sh).grantReport grant sh).leaveNews x sh).presenceNews x sh)
  rw [Blocks.tellAll_ofMembers h]
  generalize (((b.streamNews x sh).grantReport grant sh).leaveNews x sh).presenceNews x sh = c at *
  have hplant : Moves true b (c.plantNews x sh) := by
    unfold Blocks.plantNews
    rcases h.2 with e | ⟨r, e⟩ | ⟨s, e⟩ <;> rw [e]
    · exact hp
    · exact hp
    · exact hp.plantAbsent _ sh
  have hcost : Moves true b (if x.reenters then c.plantNews x sh else (c.plantNews x sh).costAfter x.before sh) := by
    split
    · exact hplant
    · exact hplant.costAfter _ sh
  unfold Blocks.costNews
  rcases h.2 with e | ⟨r, e⟩ | ⟨s, e⟩ <;> rw [e] <;> exact hcost

theorem parseChange_gone (p : List Byte) :
    parseChange .gone p = none ∨ ∃ a : Byte, p = [a] ∧ parseChange .gone p = some (.gone a.toNat) := by
  unfold parseChange
  dsimp only
  split
  · split
    · exact Or.inr ⟨_, rfl, rfl⟩
    · exact Or.inl rfl
  · exact Or.inl rfl

theorem Applied.of_join_ofMembers (own : Bool) (sender : Nat) (g : Word16) (p : List Byte) (r : Replica) :
    (Applied.of own { kind := .join, sender := sender, target := 0, gen := g, payload := p } r).OfMembers :=
  ⟨rfl, Or.inr (Or.inl ⟨_, rfl⟩)⟩

theorem Applied.of_gone_ofMembers (own : Bool) (sender : Nat) (g : Word16) (p : List Byte) (r : Replica) :
    (Applied.of own { kind := .gone, sender := sender, target := 0, gen := g, payload := p } r).OfMembers := by
  have hgone : ∀ c x, (judgeGone c x r).news = [] := fun c x => by
    unfold judgeGone
    split <;> rfl
  unfold Applied.of Applied.OfMembers judgeFrame
  dsimp only
  rcases parseChange_gone p with e | ⟨a, _, e⟩ <;> rw [e]
  · exact ⟨rfl, Or.inl rfl⟩
  · exact ⟨hgone _ _, Or.inr (Or.inr ⟨_, rfl⟩)⟩

theorem exec_join_becomes {sender : BitVec 4} {g : Word16} {p : List Byte} {s : State} (ht : s.takes g sender p) :
    s.becomes g (judgeFrame (Ctx.whole g) sender.toNat .join p s.dev.shop.rep).rep (exec (.join sender g p) s) :=
  becomes_of_judged ht rfl (fun _ grant sh b => Moves.tellAll_ofMembers (Applied.of_join_ofMembers ..) grant sh b)

theorem exec_gone_becomes {sender : BitVec 4} {g : Word16} {p : List Byte} {s : State} (ht : s.takes g sender p) :
    s.becomes g (judgeFrame (Ctx.whole g) sender.toNat .gone p s.dev.shop.rep).rep (exec (.gone sender g p) s) :=
  becomes_of_judged ht rfl (fun _ grant sh b => Moves.tellAll_ofMembers (Applied.of_gone_ofMembers ..) grant sh b)

/-! ## What a leave does to the replica (R61, R78, R95, R169) -/

/-- A top-up changes the grants alone (R93). -/
theorem topOldest_drained (l : List Entry) : ∀ room : Nat,
    (topOldest room l).map (fun e => { e with granted := 0 }) = l.map (fun e => { e with granted := 0 }) := by
  induction l with
  | nil => exact fun _ => rfl
  | cons e rest ih => exact fun room => congrArg (_ :: ·) (ih _)

theorem Ledger.entryOf_isSome (x : Nat) (l : Ledger) :
    (l.entryOf x).isSome = l.entries.any (fun e => e.station == x) := by
  rw [Bool.eq_iff_iff]
  simp [Ledger.entryOf]

/-- The entry of a station that leaves goes, and top-up runs; the plant's leaving drains the ledger (R95). -/
theorem Ledger.leave_eq (x : Nat) (l : Ledger) :
    l.leave x =
      if l.plant = some x then
        { budget := 0, plant := none
          entries := (l.entries.filter (fun e => e.station != x)).map (fun e => { e with granted := 0 }) }
      else if l.entries.any (fun e => e.station == x) then
        Ledger.topUp { l with entries := l.entries.filter (fun e => e.station != x) }
      else l := by
  unfold Ledger.leave
  rw [← Ledger.entryOf_isSome]
  cases h : l.entryOf x with
  | some e =>
    dsimp only
    split
    · exact congrArg (fun es => Ledger.mk 0 none es) (topOldest_drained _ _)
    · rfl
  | none =>
    have hall : l.entries.filter (fun e => e.station != x) = l.entries :=
      List.filter_eq_self.mpr (fun e he => by simpa using List.find?_eq_none.mp h e he)
    rw [hall]
    rfl

/-- A CLOSING job loses a station and is marked SHORT; emptied, it becomes CLOSED (R168, R169). -/
theorem Job.strike_eq (x : Nat) (g : Word16) (j : Job) :
    j.strike x g true =
      if j.state = .closing ∧ x ∈ j.pending then
        if j.pending.filter (· != x) = [] then { j with pending := [], short := true, state := .closed, closing := some g }
        else { j with pending := j.pending.filter (· != x), short := true }
      else j := by
  unfold Job.strike
  split
  · next h =>
    cases hp : j.pending.filter (· != x) with
    | nil => simp
    | cons y rest => simp [h.1]
  · rfl

/-! ## The judgments of JOIN and GONE (R55, R61) -/

theorem judgeFrame_gone_taken {c : Ctx} {sender : Nat} {a : Byte} {r : Replica} (ha : within 1 15 a.toNat = true)
    (hm : memberOf a.toNat r = true) : (judgeFrame c sender .gone [a] r).rep = r.leave c a.toNat := by
  have hparse : parseChange .gone [a] = some (.gone a.toNat) := if_pos ha
  unfold judgeFrame
  rw [hparse]
  exact congrArg Judged.rep (if_pos hm)

theorem judgeFrame_gone_void {c : Ctx} {sender : Nat} {a : Byte} {r : Replica}
    (h : within 1 15 a.toNat = false ∨ memberOf a.toNat r = false) : (judgeFrame c sender .gone [a] r).rep = r := by
  unfold judgeFrame
  cases ha : within 1 15 a.toNat with
  | false =>
    have hparse : parseChange .gone [a] = none := if_neg (by simp [ha])
    rw [hparse]
    rfl
  | true =>
    have hparse : parseChange .gone [a] = some (.gone a.toNat) := if_pos ha
    have hm : memberOf a.toNat r = false := h.resolve_left (by simp [ha])
    rw [hparse]
    exact congrArg Judged.rep (if_neg (by simp [hm]))

theorem judgeFrame_gone_length {c : Ctx} {sender : Nat} {p : List Byte} {r : Replica} (h : p.length ≠ 1) :
    (judgeFrame c sender .gone p r).rep = r := by
  unfold judgeFrame
  rcases parseChange_gone p with e | ⟨a, rfl, _⟩
  · rw [e]
    rfl
  · exact absurd rfl h

theorem judgeFrame_join (c : Ctx) (sender : Nat) (role : Role) (r : Replica) :
    (judgeFrame c sender .join [byte1 role.code] r).rep = (judgeJoin c sender role r).rep := by
  cases role <;> rfl

/-- Settles O27: the shop state is what the judgment makes of it (`becomes_of_judged`), and a leave is
`Ledger.leave_eq` and `Job.strike_eq` on its records. -/
theorem joinAndGoneMoveTheMemberSet : Obligations.JoinAndGoneMoveTheMemberSet := by
  intro sender g p s ht r topped orphaned struck left gone join
  have hleft : ∀ x, r.leave (Ctx.whole g) x = left x := by
    intro x
    have hstruck : Job.strike x g true = struck x := funext (Job.strike_eq x g)
    show Replica.mk _ (r.ledger.leave x) _ (r.jobs.map (fun j => (j.1, Job.strike x g true j.2))) _
      (r.looseJobs.map (Job.strike x g true)) = _
    rw [Ledger.leave_eq, hstruck]
    rfl
  have hgone : ∀ r', (judgeFrame (Ctx.whole g) sender.toNat .gone p r).rep = r' → s.becomes g r' gone :=
    fun r' e => e ▸ exec_gone_becomes ht
  have hjoin : ∀ r', (judgeFrame (Ctx.whole g) sender.toNat .join p r).rep = r' → s.becomes g r' join :=
    fun r' e => e ▸ exec_join_becomes ht
  refine ⟨fun a ha => ⟨fun hin hm => ?_, fun h => ?_⟩, fun h => ?_, fun role hrole => ⟨fun hm => ?_, fun hm => ?_⟩⟩
  · exact hgone _ (by rw [ha, judgeFrame_gone_taken hin hm, hleft])
  · exact hgone _ (by rw [ha, judgeFrame_gone_void h])
  · exact hgone _ (judgeFrame_gone_length h)
  · refine hjoin _ ?_
    rw [hrole, judgeFrame_join]
    simp [judgeJoin, takenAs, hm]
  · refine hjoin _ ?_
    rw [hrole, judgeFrame_join, ← hleft]
    simp [judgeJoin, takenAs, hm]

end Sys2Proof.Machine

/-! HELLO (R57, R22, R63): its head, and the duplicate number that it shows. -/

namespace Sys2Proof.Machine

/-! ## How many frames a withdrawal leaves (R14, R15) -/

theorem Line.frames_length (l : Line) : l.frames.length = l.queue.length + l.waitList.length + l.backlog.length := by
  simp [Line.frames, Nat.add_assoc]

theorem Line.enqueue_frames_length (p : Producer) (f : Frame) (l : Line) :
    (l.enqueue p f).frames.length = l.frames.length + 1 := by
  have h := Line.enqueue_queue_length p f l
  simp only [Line.frames_length, h]
  show l.queue.length + 1 + l.waitList.length + l.backlog.length = _
  omega

theorem Line.offer_frames_length_le (p : Producer) (f : Frame) (l : Line) :
    (l.offer p f).frames.length ≤ l.frames.length + 1 := by
  unfold Line.offer
  repeat' split
  · rw [Line.enqueue_frames_length]
  · omega
  · simp only [Line.frames_length, List.length_append, List.length_singleton]
    omega
  · simp only [Line.frames_length, List.length_append, List.length_singleton]
    omega

theorem Line.promote_frames_length_le (p : Producer) :
    ∀ (n : Nat) (l : Line), (Line.promote p n l).frames.length ≤ l.frames.length := by
  intro n
  induction n with
  | zero => exact fun l => Nat.le_refl _
  | succ n ih =>
    intro l
    unfold Line.promote
    split
    · exact Nat.le_refl _
    · split
      · exact Nat.le_refl _
      · next w hw =>
        have hmem := List.mem_of_find?_eq_some hw
        have hpos := List.length_pos_of_mem hmem
        have hoffer := Line.offer_frames_length_le p w.frame { l with backlog := l.backlog.erase w }
        have hrest := ih ({ l with backlog := l.backlog.erase w }.offer p w.frame)
        simp only [Line.frames_length, List.length_erase_of_mem hmem] at *
        omega

theorem Line.refill_frames_length_le :
    ∀ (n : Nat) (l : Line), (Line.refill n l).frames.length ≤ l.frames.length := by
  intro n
  induction n with
  | zero => exact fun l => Nat.le_refl _
  | succ n ih =>
    intro l
    unfold Line.refill
    split
    · split
      · exact Nat.le_refl _
      · next w hw =>
        have hmem := bestWaiter_mem hw
        have hpos := List.length_pos_of_mem hmem
        have henqueue := Line.enqueue_frames_length w.producer w.frame { l with waitList := l.waitList.erase w }
        have hpromote := Line.promote_frames_length_le w.producer l.backlog.length
          ({ l with waitList := l.waitList.erase w }.enqueue w.producer w.frame)
        have hrest := ih (Line.promote w.producer l.backlog.length
          ({ l with waitList := l.waitList.erase w }.enqueue w.producer w.frame))
        simp only [Line.frames_length, List.length_erase_of_mem hmem] at *
        omega
    · exact Nat.le_refl _

theorem Line.struck_frames_length_le (p : Producer) (sel : Frame → Bool) (again : Bool) (l : Line) :
    (l.struck p sel again).frames.length ≤ l.frames.length := by
  have hq := List.length_filter_le (fun e : OutEntry => !(e.isOf p sel && !e.inEmission)) l.queue
  have hw := List.length_filter_le (fun w : Waiter => !w.isOf p sel) l.waitList
  have hb := List.length_filter_le (fun w : Waiter => !w.isOf p sel) l.backlog
  simp only [Line.frames_length, Line.struck, List.length_map]
  omega

theorem Line.withdraw_frames_length_le (p : Producer) (sel : Frame → Bool) (again : Bool) (l : Line) :
    (l.withdraw p sel again).frames.length ≤ l.frames.length := by
  rw [Line.withdraw_eq]
  calc (Line.promote p l.backlog.length (l.struck p sel again).settle).frames.length
      ≤ (l.struck p sel again).settle.frames.length := Line.promote_frames_length_le _ _ _
    _ ≤ (l.struck p sel again).frames.length := Line.refill_frames_length_le _ _
    _ ≤ l.frames.length := Line.struck_frames_length_le p sel again l

/-! ## The entry into MUTE (R14, R22, R63) -/

/-- A producer in MUTE takes its answer to DISCARDED: the line, the presence unit and the table unit stand, and one notice
at most is posted. -/
structure Blocks.ToldInMute (b c : Blocks) : Prop where
  line : c.line = b.line
  pres : c.pres = b.pres
  asking : c.asking = b.asking
  notices : c.host.notices.length ≤ b.host.notices.length + 1

theorem Blocks.post_toldInMute (n : Notice) (b : Blocks) : b.ToldInMute (b.post n) := by
  refine ⟨Blocks.post_line n b, Blocks.post_pres n b, Blocks.post_asking n b, ?_⟩
  unfold Blocks.post
  repeat' split
  · exact Nat.le_succ _
  · exact Nat.le_of_eq (List.length_append ..)
  · exact Nat.le_succ _

/-- In MUTE a claim that fails looks for no other and reports no cost (R125, R178). -/
theorem Blocks.claimFails_toldInMute {b : Blocks} (hm : b.pres.mem = .mute) (sh : Shop) (p : Plan) :
    b.ToldInMute (b.claimFails sh p) := by
  have hquiet : ∀ c : Blocks, c.pres.mem = .mute → (c.reportChecks sh).search sh = c := fun c hc => by
    have hreport : c.reportChecks sh = c := if_neg (by simp [hc, Membership.offers])
    rw [hreport]
    exact if_neg (by simp [live, Blocks.isMember, hc])
  unfold Blocks.claimFails Blocks.planEnds Blocks.costPlanEnded
  rw [hquiet]
  · exact ⟨rfl, rfl, rfl, Nat.le_succ _⟩
  · exact hm

theorem Blocks.discarded_toldInMute {b : Blocks} (hm : b.pres.mem = .mute) (sh : Shop) (w : Waiter) :
    b.ToldInMute (b.discarded sh w) := by
  have h : b.ToldInMute b := ⟨rfl, rfl, rfl, Nat.le_succ _⟩
  unfold Blocks.discarded
  split
  · exact b.post_toldInMute _
  · exact b.post_toldInMute _
  · exact b.post_toldInMute _
  · unfold Blocks.plannerDiscarded
    repeat' split
    · exact Blocks.claimFails_toldInMute hm sh _
    · exact h
    · exact ⟨rfl, rfl, rfl, Nat.le_succ _⟩
    · exact ⟨rfl, rfl, rfl, Nat.le_succ _⟩
    · exact h
  · exact ⟨rfl, rfl, rfl, Nat.le_succ _⟩
  · exact h

/-- In MUTE the queue, the wait list and the backlogs go with at most one notice for each frame (R14). -/
theorem Blocks.discardAll_inMute {b : Blocks} (hm : b.pres.mem = .mute) (sh : Shop) :
    (b.discardAll sh).line = b.line.emptied ∧ (b.discardAll sh).pres = b.pres ∧ (b.discardAll sh).asking = b.asking ∧
      (b.discardAll sh).host.notices.length ≤ b.host.notices.length + b.line.frames.length := by
  have hrun : ∀ (l : List Waiter) (c : Blocks), c.pres.mem = .mute →
      (l.foldl (fun x w => x.discarded sh w) c).line = c.line ∧
        (l.foldl (fun x w => x.discarded sh w) c).pres = c.pres ∧
        (l.foldl (fun x w => x.discarded sh w) c).asking = c.asking ∧
        (l.foldl (fun x w => x.discarded sh w) c).host.notices.length ≤ c.host.notices.length + l.length := by
    intro l
    induction l with
    | nil => exact fun c _ => ⟨rfl, rfl, rfl, Nat.le_refl _⟩
    | cons w rest ih =>
      intro c hc
      have h := Blocks.discarded_toldInMute hc sh w
      obtain ⟨h1, h2, h3, h4⟩ := ih (c.discarded sh w) (by rw [h.pres, hc])
      have hn := h.notices
      refine ⟨h1.trans h.line, h2.trans h.pres, h3.trans h.asking, h4.trans ?_⟩
      rw [List.length_cons]
      omega
  exact hrun b.line.frames { b with line := b.line.emptied } hm

/-- What the entry into MUTE leaves (R22, R63). -/
structure Blocks.Muted (b c : Blocks) : Prop where
  pres : c.pres = { b.pres with mem := .mute, listenT := none, askT := none, helloT := none }
  line : c.line = b.line.emptied
  stream : c.asking.stream = none
  notices : c.host.notices.length ≤ b.host.notices.length + b.line.frames.length

theorem Blocks.enterMute_muted (sh : Shop) (b : Blocks) : b.Muted (b.enterMute sh) := by
  obtain ⟨hl, hp, _, hn⟩ := Blocks.discardAll_inMute
    (b := b.onPres (fun p => { p with mem := .mute, listenT := none, askT := none, helloT := none })) rfl sh
  exact ⟨hp, hl, rfl, hn⟩

/-! ## HELLO as a command (R22, R57) -/

/-- The frame of a HELLO off the line (R4). -/
def helloTaken (sender : BitVec 4) (gen : Word16) (p : List Byte) : Taken :=
  { kind := .hello, sender := sender.toNat, target := 0, gen := gen, payload := p }

/-- HELLO is its head, and the news of a duplicate (R22, R57). -/
theorem exec_hello {sender : BitVec 4} {gen : Word16} {p : List Byte} {s : State} (hh : s.hears sender p) :
    exec (.hello sender gen p) s = .next
      { s with
        dev :=
          { s.dev.headTaken (helloTaken sender gen p) with
            blk := Blocks.tellDuplicate ((s.dev.completeFor (helloTaken sender gen p)).blk.isOwn (helloTaken sender gen p))
              (helloTaken sender gen p)
              ((s.dev.completeFor (helloTaken sender gen p)).blk.onLine Line.frameTaken)
              (s.dev.headTaken (helloTaken sender gen p)).blk } } := by
  have h : exec (.hello sender gen p) s = s.frameIn .hello sender 0 gen p := rfl
  rw [h, frameIn_takes hh (by decide)]
  exact congrArg (fun d => Host.Outcome.next { s with dev := d })
    (Station.takeFrame_unpended hh.2.2.2 (helloTaken sender gen p))

theorem Station.completeFor_idle {d : Station} (he : d.blk.line.emitting = none) (f : Taken) : d.completeFor f = d := by
  unfold Station.completeFor
  rw [he]

/-- The head of a frame that carries this station's number and is not its own: a duplicate (R22). -/
theorem Station.headTaken_duplicate {f : Taken} {s : State} (he : s.dev.blk.line.emitting = none)
    (hs : f.sender = s.dev.blk.pres.station) (hown : s.dev.blk.isOwn f = false) :
    s.dev.headTaken f = { s.dev with blk := (s.headed f.sender).dev.blk.duplicate s.dev.shop } := by
  have hhead : (s.dev.blk.onLine Line.frameTaken).peerHead f s.dev.shop =
      (s.headed f.sender).dev.blk.duplicate s.dev.shop := by
    have he' : (s.dev.blk.onLine Line.frameTaken).line.emitting = none := he
    unfold Blocks.peerHead
    dsimp only
    rw [he', if_pos (show f.sender = (s.dev.blk.onLine Line.frameTaken).pres.station from hs)]
    refine congrArg (Blocks.duplicate s.dev.shop) ?_
    simp [State.headed, Blocks.hear, he, Blocks.withdraw, Blocks.onPres, Blocks.onLine, Line.frameTaken]
  unfold Station.headTaken
  dsimp only
  rw [Station.completeFor_idle he, hown]
  exact congrArg (fun b => { s.dev with blk := b }) hhead

/-- A HELLO that carries this station's number and is not its own (R22). -/
theorem exec_hello_duplicate {sender : BitVec 4} {gen : Word16} {p : List Byte} {s : State} (hh : s.hears sender p)
    (hs : sender.toNat = s.dev.blk.pres.station) (he : s.dev.blk.line.emitting = none)
    (hd : s.dev.blk.line.txDone ≠ some .hello) :
    exec (.hello sender gen p) s = .next
      { s with
        dev.blk :=
          let b := (s.headed sender.toNat).dev.blk.duplicate s.dev.shop
          if s.dev.blk.pres.mem.tellsDuplicate then b.post (.duplicateStation .hello) else b } := by
  have hown : s.dev.blk.isOwn (helloTaken sender gen p) = false := by
    simp [Blocks.isOwn, helloTaken, hd]
  have hhead := Station.headTaken_duplicate (f := helloTaken sender gen p) he hs hown
  rw [exec_hello hh, Station.completeFor_idle he, hown, hhead]
  have htell : ∀ b : Blocks, Blocks.tellDuplicate false (helloTaken sender gen p) (s.dev.blk.onLine Line.frameTaken) b =
      if s.dev.blk.pres.mem.tellsDuplicate then b.post (.duplicateStation .hello) else b := fun b => by
    unfold Blocks.tellDuplicate
    simp [helloTaken, hs]
  rw [htell]
  rfl

/-- Before MEMBER a duplicate number puts the station in MUTE, and DUPLICATE_STATION stands behind what that posts (R22,
R63). -/
theorem exec_hello_mutes {sender : BitVec 4} {gen : Word16} {p : List Byte} {s : State} {ph : Phase}
    (hh : s.hears sender p) (hs : sender.toNat = s.dev.blk.pres.station) (he : s.dev.blk.line.emitting = none)
    (hd : s.dev.blk.line.txDone ≠ some .hello) (hm : s.dev.blk.pres.mem = .outside ph ∨ s.dev.blk.pres.mem = .joining) :
    exec (.hello sender gen p) s = .next
      { s with
        dev.blk := ((s.headed sender.toNat).dev.blk.enterMute s.dev.shop).post (.duplicateStation .hello) } := by
  have hdup : (s.headed sender.toNat).dev.blk.duplicate s.dev.shop =
      (s.headed sender.toNat).dev.blk.enterMute s.dev.shop := by
    have hm' : (s.headed sender.toNat).dev.blk.pres.mem = s.dev.blk.pres.mem := rfl
    unfold Blocks.duplicate
    rcases hm with hm | hm <;> rw [hm', hm]
  have htells : s.dev.blk.pres.mem.tellsDuplicate = true := by rcases hm with hm | hm <;> rw [hm] <;> rfl
  rw [exec_hello_duplicate hh hs he hd, hdup, htells]
  rfl

/-- Settles O32: HELLO is its head (`exec_hello`); a duplicate number before MEMBER is the entry into MUTE
(`Blocks.enterMute_muted`), and DUPLICATE_STATION comes behind its notices. -/
theorem helloFrameIsItsHead : Obligations.HelloFrameIsItsHead := by
  intro sender gen p s hh o l headed
  refine ⟨fun hs => ?_, fun hs he hd => ?_, fun hs he hd => ?_⟩
  · have hpeer := Station.takeFrame_peer (f := helloTaken sender gen p) hs hh.2.2.2
    have hexec : o = s.frameIn .hello sender 0 gen p := rfl
    rw [hexec, frameIn_takes hh (by decide)]
    exact congrArg (fun d => Host.Outcome.next { s with dev := d }) hpeer
  · have hown : s.dev.blk.isOwn (helloTaken sender gen p) = true := by
      simp [Blocks.isOwn, helloTaken, hs, show s.dev.blk.line.txDone = some .hello from hd]
    refine (exec_hello hh).trans ?_
    unfold Station.headTaken
    dsimp only
    rw [Station.completeFor_idle he, hown]
    rfl
  · have hexec : o = _ := exec_hello_duplicate hh hs he hd
    refine ⟨fun hm => ?_, fun hm => ?_, fun ph hm => ⟨_, exec_hello_mutes hh hs he hd hm, ?_⟩⟩
    · rw [hexec]
      simp [Blocks.duplicate, hm, Membership.tellsDuplicate, State.headed, headed]
    · rw [hexec]
      simp [Blocks.duplicate, hm, Membership.tellsDuplicate, State.headed, headed]
    · have hmuted := Blocks.enterMute_muted s.dev.shop (s.headed sender.toNat).dev.blk
      have hframes := Line.withdraw_frames_length_le .presence (isGoneOf sender.toNat) false
        { s.dev.blk.line with
          rx := .waitIdle, idle := false, txDone := none, badStop := false
          yielding := s.dev.blk.line.yielding && s.dev.blk.line.emitting.isSome }
      have hmem : ((s.headed sender.toNat).dev.blk.enterMute s.dev.shop).pres.mem ≠ .inert := by simp [hmuted.pres]
      have hkept := keptByFrames_of (s := s)
        (t := { s with
          dev.blk := ((s.headed sender.toNat).dev.blk.enterMute s.dev.shop).post (.duplicateStation .hello) }) rfl
        (((Tells.refl (s.headed sender.toNat).dev.blk).enterMute s.dev.shop).post _)
        (((Moves.refl true (s.headed sender.toNat).dev.blk).enterMute s.dev.shop).post _)
      dsimp only
      rw [Blocks.post_pres, Blocks.post_line, Blocks.post_asking, hmuted.pres, hmuted.line]
      refine ⟨rfl, rfl, rfl, rfl, rfl, rfl, rfl, hmuted.stream, rfl, hkept, fun hroom => ?_⟩
      rw [Blocks.post_notices hmem (Nat.lt_of_le_of_lt (hmuted.notices.trans (Nat.add_le_add_left hframes _)) hroom)]
      exact List.getLast?_concat

end Sys2Proof.Machine

/-! A change frame of any kind that a CURRENT replica takes (R26, R28): what every block is told of it, as news. -/

namespace Sys2Proof.Machine

/-! ## The charges of a CONSUME (R85, R176) -/

namespace CostUnit

/-- A run of changes of the cost unit that each leave its clock. -/
theorem foldl_clockT {β : Type} {f : CostUnit → β → CostUnit} (hf : ∀ c x, (f c x).clockT = c.clockT) (l : List β) :
    ∀ c : CostUnit, (l.foldl f c).clockT = c.clockT := by
  induction l with
  | nil => exact fun _ => rfl
  | cons x rest ih => exact fun c => (ih (f c x)).trans (hf c x)

@[simp] theorem charge_clockT (job : Nat) (t : Tally) (c : CostUnit) : (c.charge job t).clockT = c.clockT := rfl

@[simp] theorem lowered_clockT (job : Nat) (c : CostUnit) : (c.lowered job).clockT = c.clockT := rfl

@[simp] theorem stoneCharge_clockT (f : Figures) (l : List Settlement) (c : CostUnit) :
    (c.stoneCharge f l).clockT = c.clockT :=
  (foldl_clockT (fun x (s : Settlement) => lowered_clockT s.job x) l _).trans
    (foldl_clockT (fun x (p : Nat × Nat) => charge_clockT p.1 (stoneTally f l p.1 p.2) x) _ c)

@[simp] theorem takeFigures_clockT (f : Figures) (c : CostUnit) : (c.takeFigures f).clockT = c.clockT := by
  unfold CostUnit.takeFigures
  split
  · exact stoneCharge_clockT f _ c
  · rfl

@[simp] theorem takeSettlement_clockT (l : List Settlement) (c : CostUnit) :
    (c.takeSettlement l).clockT = c.clockT := by
  unfold CostUnit.takeSettlement
  split
  · exact stoneCharge_clockT _ l c
  · rfl

end CostUnit

namespace Moves

variable {n : Bool} {a b : Blocks}

/-! ## The outcomes of the planner's own frames (R127, R128, R135, R136, R139) -/

theorem sawPlanEnded (h : Moves n a b) : Moves n a b.sawPlanEnded := by
  unfold Blocks.sawPlanEnded
  split
  · exact (h.onSaw rfl rfl).startDrop
  · exact h

theorem sawSlabLost (h : Moves n a b) : Moves n a b.sawSlabLost := by
  unfold Blocks.sawSlabLost
  split
  · exact h
  · exact (h.onSaw rfl rfl).reportFault _
  all_goals exact h.sawFault _

theorem planEnds (h : Moves n a b) (sh : Shop) : Moves n a (b.planEnds sh) :=
  (((h.setPlan none).setSealT none).costPlanEnded sh).search sh

theorem planSlabLost (h : Moves n a b) : Moves n a b.planSlabLost := ((h.onPlan _).post _).sawSlabLost

theorem offerRelease (h : Moves n a b) : Moves n a b.offerRelease := by
  unfold Blocks.offerRelease
  split
  · exact h
  · exact (h.onPlan _).offer _ _

theorem reserve (h : Moves n a b) (job : Nat) : Moves n a (b.onCost (CostUnit.reserve job)) :=
  h.onCost (CostUnit.reserve_clockT job b.cost)

theorem release (h : Moves n a b) (job : Nat) : Moves n a (b.onCost (CostUnit.release job)) :=
  h.onCost (CostUnit.release_clockT job b.cost)

theorem firstPlacement (h : Moves n a b) (sh : Shop) (p : Plan) : Moves n a (b.firstPlacement sh p) := by
  unfold Blocks.firstPlacement
  repeat' split
  · exact h
  · exact ((h.reserve _).placePiece _ _ _).look sh
  · exact h.look sh
  · exact (((h.reserve _).placePiece _ _ _).release _).look sh
  · exact h.offerRelease.release _

theorem claimOutcome (h : Moves n a b) (sh : Shop) (i : SlabId) (taken : Bool) :
    Moves n a (b.claimOutcome sh i taken) := by
  unfold Blocks.claimOutcome
  repeat' split
  · exact h
  · exact (h.onPlan _).firstPlacement sh _
  · exact h.claimFails sh _
  · exact h

theorem rivalClaim (h : Moves n a b) (sh : Shop) (i : SlabId) : Moves n a (b.rivalClaim sh i) := by
  unfold Blocks.rivalClaim
  repeat' split
  · exact h
  · exact h.withdrawClaim sh _
  · exact h

theorem releaseOutcome (h : Moves n a b) (sh : Shop) (i : SlabId) (taken : Bool) :
    Moves n a (b.releaseOutcome sh i taken) := by
  unfold Blocks.releaseOutcome
  repeat' split
  · exact h
  · exact h.onPlan _
  · exact h.planEnds sh
  · exact h

theorem consumeOutcome (h : Moves n a b) (sh : Shop) (i : SlabId) (taken : Bool) :
    Moves n a (b.consumeOutcome sh i taken) := by
  unfold Blocks.consumeOutcome
  repeat' split
  · exact h
  · exact ((((h.onCost (CostUnit.takeSettlement_clockT _ _)).setPlan none).post _).sawPlanEnded).planEnds sh
  · exact h.onPlan _
  · exact h.planSlabLost
  · exact h

theorem reclaimed (h : Moves n a b) (sh : Shop) (p : Plan) : Moves n a (b.reclaimed sh p) := by
  unfold Blocks.reclaimed
  dsimp only
  repeat' split
  · exact (h.onPlan _).offerRelease
  · exact (h.onPlan _).offerConsume sh
  · exact (h.onPlan _).look sh

theorem reclaimOutcome (h : Moves n a b) (sh : Shop) (i : SlabId) (taken : Bool) :
    Moves n a (b.reclaimOutcome sh i taken) := by
  unfold Blocks.reclaimOutcome
  repeat' split
  · exact h
  · exact h.reclaimed sh _
  · exact h
  · exact h.planSlabLost.planEnds sh
  · exact h.planSlabLost
  · exact h

theorem jobLeft (h : Moves n a b) (sh : Shop) (job : Nat) : Moves n a (b.jobLeft sh job) := by
  have h1 := (h.onPlanner (fun p => { p with pieces := p.pieces.filter (fun x => !(x.job == job)) })).postAll
    (cancelNotices (b.planner.pieces.filter (fun x => x.job == job)))
  unfold Blocks.jobLeft Blocks.jobsLeft
  dsimp only
  repeat' split
  · exact h1
  · exact (h1.onPlan _).withdrawClaim sh _
  · exact h1

/-! ## The outcomes of the plant unit's and the cost unit's own frames (R89, R96, R97, R114, R180) -/

theorem budgetOutcome (h : Moves true a b) (v : Nat) (void : Option VoidReason) (sh : Shop) :
    Moves true a (b.budgetOutcome v void sh) := by
  unfold Blocks.budgetOutcome
  repeat' split
  · exact (h.onPlant rfl rfl rfl rfl).plantCompare sh
  · exact h.enterStandby sh
  · exact h.ledgerReport sh
  · exact h

theorem rivalBudget (h : Moves true a b) (before : Replica) (sh : Shop) : Moves true a (b.rivalBudget before sh) := by
  unfold Blocks.rivalBudget
  split
  · exact h.reportIntoStandby sh
  · exact h.ledgerReport sh

theorem reportOutcome (h : Moves n a b) (job : Nat) (taken : Bool) (gen : Word16) :
    Moves n a (b.reportOutcome job taken gen) := by
  unfold Blocks.reportOutcome
  repeat' split
  · exact h
  · exact h.onCost rfl
  · exact h.onCost rfl
  · exact (h.onCost rfl).post _

/-! ## Every block is told (R28) -/

theorem plantNews (h : Moves true a b) (x : Applied) (sh : Shop) : Moves true a (b.plantNews x sh) := by
  unfold Blocks.plantNews
  repeat' split
  · exact h.budgetOutcome _ _ sh
  · exact h.rivalBudget _ sh
  · exact h
  · exact h.plantAbsent _ sh
  · exact h

theorem sawNews (h : Moves n a b) (x : Applied) (sh : Shop) : Moves n a (b.sawNews x sh) := by
  unfold Blocks.sawNews
  repeat' split
  · exact h.askCheck sh
  · exact h
  · exact h.askCheck sh
  · exact h
  · exact h

theorem figuresNews (h : Moves n a b) (x : Applied) : Moves n a (b.figuresNews x) := by
  unfold Blocks.figuresNews
  repeat' split
  · exact h.onCost (CostUnit.takeFigures_clockT _ _)
  · exact h.onCost rfl
  · exact h
  · exact h

theorem plannerNews (h : Moves n a b) (x : Applied) (sh : Shop) : Moves n a (b.plannerNews x sh) := by
  have told {c : Blocks} (k : Moves n a c) : Moves n a (if x.out.news.isEmpty then c else c.search sh) := by
    split
    · exact k
    · exact k.search sh
  unfold Blocks.plannerNews
  split
  · refine told ?_
    repeat' split
    · exact h.claimOutcome sh _ _
    · exact h.rivalClaim sh _
    · exact h
    · exact h.releaseOutcome sh _ _
    · exact h
    · exact h.reclaimOutcome sh _ _
    · exact h
    · exact h.consumeOutcome sh _ _
    · exact h
    · exact h.searchOrLook sh
    · exact h
    · exact h.jobLeft sh _
    · exact h
    · exact h
  · exact h

theorem costNews (h : Moves n a b) (x : Applied) (sh : Shop) : Moves n a (b.costNews x sh) := by
  have after {c : Blocks} (k : Moves n a c) : Moves n a (if x.reenters then c else c.costAfter x.before sh) := by
    split
    · exact k
    · exact k.costAfter _ sh
  unfold Blocks.costNews
  cases hc : x.change with
  | none => exact after h
  | some ch =>
    cases ch with
    | costReport job sums =>
      refine after ?_
      dsimp only
      repeat' split
      · exact (h.reportOutcome _ _ _).search sh
      · exact h.reportOutcome _ _ _
      · exact h
    | jobClose job =>
      dsimp only
      split
      · exact (after h).zeroCheck sh job
      · exact after h
    | _ => exact after h

theorem hostNews (h : Moves n a b) (x : Applied) : Moves n a (b.hostNews x) := by
  unfold Blocks.hostNews
  repeat' split
  · exact h.post _
  · exact h.post _
  · exact h.post _
  · exact h.post _
  · exact h.post _
  · exact h
  · exact h

theorem tellAll (h : Moves true a b) (x : Applied) (grant : Nat) (sh : Shop) : Moves true a (b.tellAll x grant sh) :=
  (((((((((h.streamNews x sh).grantReport grant sh).sawNews x sh).leaveNews x sh).presenceNews x sh).plantNews x
    sh).figuresNews x).plannerNews x sh).costNews x sh).hostNews x

end Moves

/-! ## The taken frame as a command -/

/-- A change frame that the station takes makes the shop state what the frame's judgment says (R26). -/
theorem frameIn_becomes {k : Kind} {sender : BitVec 4} {g : Word16} {p : List Byte} {s : State}
    (ht : s.takes g sender p) (hk : k.isChange = true) :
    s.becomes g (judgeFrame (Ctx.whole g) sender.toNat k p s.dev.shop.rep).rep (s.frameIn k sender 0 g p) :=
  becomes_of_judged ht hk (fun _ grant sh b => (Moves.refl true b).tellAll _ grant sh)

end Sys2Proof.Machine

/-! The stock table's frames (R70, R73 to R84): records by id and by slot, what each judgment makes of the replica, and the
frames as commands. -/

namespace Sys2Proof.Machine

/-! ## Records by id (R68) -/

/-- The record of an id is a record held, and it has that id. -/
theorem Replica.slab?_some {r : Replica} {i : SlabId} {x : Slab} (h : r.slab? i = some x) :
    x ∈ r.allSlabs ∧ x.id = i := by
  unfold Replica.slab? Replica.findSlab at h
  split at h
  · next slot y hy =>
    cases h
    exact ⟨List.mem_append_left _ (List.mem_map_of_mem (List.mem_of_find?_eq_some hy)),
      by simpa using List.find?_some hy⟩
  · rw [Option.map_map] at h
    have hx : r.looseSlabs.find? (fun y => y.id == i) = some x := by simpa [Function.comp_def] using h
    exact ⟨List.mem_append_right _ (List.mem_of_find?_eq_some hx), by simpa using List.find?_some hx⟩

theorem Replica.slab?_eq_none_iff {r : Replica} {i : SlabId} : r.slab? i = none ↔ ∀ x ∈ r.allSlabs, x.id ≠ i := by
  refine ⟨fun h x hx hi => ?_, fun h => ?_⟩
  · unfold Replica.slab? Replica.findSlab at h
    split at h
    · exact absurd h (by simp)
    · next hslots =>
      simp only [Option.map_eq_none_iff, List.find?_eq_none, beq_iff_eq] at h hslots
      rcases List.mem_append.mp hx with hx | hx
      · obtain ⟨y, hy, rfl⟩ := List.mem_map.mp hx
        exact hslots y hy hi
      · exact h x hx hi
  · refine Option.eq_none_iff_forall_ne_some.mpr (fun x hx => ?_)
    obtain ⟨hmem, hid⟩ := Replica.slab?_some hx
    exact h x hmem hid

theorem Replica.slab?_isSome_iff {r : Replica} {i : SlabId} :
    (r.slab? i).isSome = true ↔ ∃ x ∈ r.allSlabs, x.id = i := by
  rw [← Option.ne_none_iff_isSome, ne_eq, Replica.slab?_eq_none_iff]
  simp

theorem Replica.holds_eq_false_iff {r : Replica} {s : Nat} :
    r.holds s = false ↔ ∀ x ∈ r.allSlabs, x.holder ≠ some s := by
  simp [Replica.holds]

/-! ## Inserting a record (R70) -/

theorem Slots.lowestFree_eq_some_iff {α : Type} {limit n : Nat} {m : Slots α} (hw : Slots.wf m = true) :
    Slots.lowestFree limit m = some n ↔ n < limit ∧ lowestEmpty n m := by
  refine ⟨fun h => Slots.lowestFree_spec hw h, fun ⟨hlt, hfree, hbelow⟩ => ?_⟩
  cases h : Slots.lowestFree limit m with
  | none =>
    have := Slots.lowestFree_none hw h n hlt
    rw [hfree] at this
    exact absurd this Bool.false_ne_true
  | some k =>
    obtain ⟨_, hk, hkbelow⟩ := Slots.lowestFree_spec hw h
    rcases Nat.lt_trichotomy k n with hkn | rfl | hkn
    · have := hbelow k hkn
      rw [hk] at this
      exact absurd this Bool.false_ne_true
    · rfl
    · have := hkbelow n hkn
      rw [hfree] at this
      exact absurd this Bool.false_ne_true

theorem Slots.lowestFree_eq_none_iff {α : Type} {limit : Nat} {m : Slots α} (hw : Slots.wf m = true) :
    Slots.lowestFree limit m = none ↔ ∀ n, n < limit → (Slots.get n m).isSome = true := by
  refine ⟨fun h => Slots.lowestFree_none hw h, fun h => ?_⟩
  refine Option.eq_none_iff_forall_ne_some.mpr (fun n hn => ?_)
  obtain ⟨hlt, hfree, _⟩ := Slots.lowestFree_spec hw hn
  have := h n hlt
  rw [hfree] at this
  exact absurd this Bool.false_ne_true

theorem Replica.insertSlab_of_lowestFree {c : Ctx} {x : Slab} {r : Replica} {n : Nat}
    (h : Slots.lowestFree c.slabLimit r.slabs = some n) :
    r.insertSlab c x = some ({ r with slabs := Slots.set n x r.slabs }, some n) := by
  unfold Replica.insertSlab
  rw [h]

theorem Replica.insertSlab_full {c : Ctx} {x : Slab} {r : Replica} (hdone : c.slabDone = true)
    (h : Slots.lowestFree c.slabLimit r.slabs = none) : r.insertSlab c x = none := by
  unfold Replica.insertSlab
  rw [h]
  exact if_pos hdone

/-! ## The judgment of a payload (R72) -/

theorem judgeFrame_of_parse {c : Ctx} {s : Nat} {k : Kind} {p : List Byte} {ch : Change}
    (h : parseChange k p = some ch) (r : Replica) : judgeFrame c s k p r = judge c s ch r := by
  unfold judgeFrame
  rw [h]

theorem judgeFrame_unparsed {c : Ctx} {s : Nat} {k : Kind} {p : List Byte} (h : parseChange k p = none) (r : Replica) :
    (judgeFrame c s k p r).rep = r := by
  unfold judgeFrame
  rw [h]
  rfl

/-! ## SLAB_ADD (R73, R74) -/

theorem judgeSlabAdd_present {c : Ctx} {x : Slab} {r : Replica} (h : ∃ y ∈ r.allSlabs, y.id = x.id) :
    (judgeSlabAdd c x r).rep = r := congrArg Judged.rep (if_pos (Replica.slab?_isSome_iff.mpr h))

theorem judgeSlabAdd_full {c : Ctx} {x : Slab} {r : Replica} (h : r.insertSlab c x = none) :
    (judgeSlabAdd c x r).rep = r := by
  unfold judgeSlabAdd
  rw [h]
  exact (apply_ite Judged.rep _ _ _).trans (ite_self r)

theorem judgeSlabAdd_inserted {c : Ctx} {x : Slab} {r q : Replica} {slot : Option Nat}
    (hid : ∀ y ∈ r.allSlabs, y.id ≠ x.id) (h : r.insertSlab c x = some (q, slot)) : (judgeSlabAdd c x r).rep = q := by
  unfold judgeSlabAdd
  rw [Replica.slab?_eq_none_iff.mpr hid, h]
  rfl

/-- The payload of a SLAB_ADD passes its step exactly when the fields lie in their ranges (R68, R197). -/
theorem parseChange_slabAddPayload {serial material thickness length width rack rate : Nat} (hs : serial < 65536)
    (hm : material < 256) (ht : thickness < 256) (hl : length < 65536) (hw : width < 65536) (hr : rack < 256)
    (hq : rate < 65536) :
    parseChange .slabAdd (slabAddPayload serial material thickness length width rack rate) =
      if within 1 4095 serial && slabFieldsOk material thickness length width then
        some (.slabAdd serial material thickness length width rack rate)
      else none := by
  simp only [slabAddPayload, bytes2, List.cons_append, List.nil_append, parseChange,
    be16_byte1 (Nat.le_of_lt_succ hs), byte1_toNat hm, byte1_toNat ht, be16_byte1 (Nat.le_of_lt_succ hl),
    be16_byte1 (Nat.le_of_lt_succ hw), byte1_toNat hr, be16_byte1 (Nat.le_of_lt_succ hq)]

theorem exec_slabAdd_becomes {sender : BitVec 4} {g : Word16} {p : List Byte} {s : State} (ht : s.takes g sender p) :
    s.becomes g (judgeFrame (Ctx.whole g) sender.toNat .slabAdd p s.dev.shop.rep).rep (exec (.slabAdd sender g p) s) :=
  frameIn_becomes ht rfl

/-- Settles O28: the payload passes exactly when its fields are in range, and the judgment then looks for the id and for
the lowest empty slot (`Slots.lowestFree_eq_some_iff`). -/
theorem slabAddFrameInsertsASheet : Obligations.SlabAddFrameInsertsASheet := by
  intro sender g serial material thickness length width rack rate s p ht hs hm hth hl hw hr hq hwf r o id inRange
  have hparse := parseChange_slabAddPayload hs hm hth hl hw hr hq
  have hrange : (within 1 4095 serial && slabFieldsOk material thickness length width) = inRange := by
    simp only [slabFieldsOk, inRange, Bool.and_assoc]
  rw [hrange] at hparse
  have becomes : ∀ r', (judgeFrame (Ctx.whole g) sender.toNat .slabAdd p r).rep = r' → s.becomes g r' o :=
    fun r' e => e ▸ exec_slabAdd_becomes ht
  have outOfRange (h : inRange = false) : (judgeFrame (Ctx.whole g) sender.toNat .slabAdd p r).rep = r :=
    judgeFrame_unparsed (hparse.trans (if_neg (by simp [h]))) r
  have judged (h : inRange = true) : judgeFrame (Ctx.whole g) sender.toNat .slabAdd p r =
      judgeSlabAdd (Ctx.whole g) (sheetSlab sender.toNat serial material thickness length width rack rate) r :=
    judgeFrame_of_parse (hparse.trans (if_pos h)) r
  have voidIn (h : (judgeSlabAdd (Ctx.whole g) (sheetSlab sender.toNat serial material thickness length width rack rate)
      r).rep = r) : s.becomes g r o := by
    refine becomes r ?_
    cases hin : inRange with
    | false => exact outOfRange hin
    | true => rw [judged hin, h]
  refine ⟨fun n hin hid hn hfree => becomes _ ?_, fun hin => becomes r (outOfRange hin), fun hid => voidIn ?_,
    fun hfull => voidIn ?_⟩
  · rw [judged hin]
    exact judgeSlabAdd_inserted hid
      (Replica.insertSlab_of_lowestFree ((Slots.lowestFree_eq_some_iff hwf).mpr ⟨hn, hfree⟩))
  · exact judgeSlabAdd_present hid
  · exact judgeSlabAdd_full (Replica.insertSlab_full rfl ((Slots.lowestFree_eq_none_iff hwf).mpr hfull))

/-! ## CLAIM, RELEASE, RECLAIM, FREE_ORPHAN and SCRAP (R75 to R82) -/

/-- The change that a frame on one slab id asks for. -/
def Kind.changeOfId : Kind → Option (SlabId → Change)
  | .claim => some .claim
  | .release => some .release
  | .reclaim => some .reclaim
  | .freeOrphan => some .freeOrphan
  | .scrap => some .scrap
  | .budget | .flowAsk | .flowDrop | .join | .gone | .rebase | .slabAdd | .consume | .jobOpen | .jobClose | .costReport
  | .hello | .syncAsk | .snap => none

/-- The kinds of frame on one slab id (R197). -/
def Kind.onOneId : List Kind := [.claim, .release, .reclaim, .freeOrphan, .scrap]

theorem Kind.onOneId_change {k : Kind} (h : k ∈ Kind.onOneId) : k.isChange = true ∧ ∃ f, k.changeOfId = some f := by
  simp only [Kind.onOneId, List.mem_cons, List.not_mem_nil, or_false] at h
  rcases h with rfl | rfl | rfl | rfl | rfl <;> exact ⟨rfl, _, rfl⟩

theorem parseChange_changeOfId {k : Kind} {f : SlabId → Change} (h : k.changeOfId = some f) (p : List Byte) :
    parseChange k p = (idPayload p).map f := by
  cases k <;> cases h <;> rfl

/-- A frame on one slab id is judged on that id (R72). -/
theorem judgeFrame_idPayload {c : Ctx} {s : Nat} {k : Kind} {f : SlabId → Change} {p : List Byte} {i : SlabId}
    (h : k.changeOfId = some f) (hp : idPayload p = some i) (r : Replica) :
    judgeFrame c s k p r = judge c s (f i) r :=
  judgeFrame_of_parse ((parseChange_changeOfId h p).trans (congrArg _ hp)) r

theorem judgeClaim_rep {s : Nat} {i : SlabId} {r : Replica} {x : Slab} (hx : r.slab? i = some x) :
    (judgeClaim s i r).rep =
      if x.state = .free ∧ memberOf s r = true ∧ ∀ y ∈ r.allSlabs, y.holder ≠ some s then
        r.onSlab i (fun y => { y with state := .claimed, holder := some s })
      else r := by
  unfold judgeClaim
  rw [hx]
  refine (apply_ite Judged.rep _ _ _).trans (if_congr ?_ rfl rfl)
  rw [Bool.not_eq_true, Replica.holds_eq_false_iff]

theorem judgeRelease_rep {s : Nat} {i : SlabId} {r : Replica} {x : Slab} (hx : r.slab? i = some x) :
    (judgeRelease s i r).rep =
      if x.state = .claimed ∧ x.holder = some s then r.onSlab i (fun y => { y with state := .free, holder := none })
      else r := by
  unfold judgeRelease
  rw [hx]
  exact apply_ite Judged.rep _ _ _

theorem judgeReclaim_rep {s : Nat} {i : SlabId} {r : Replica} {x : Slab} (hx : r.slab? i = some x) :
    (judgeReclaim s i r).rep =
      if x.state = .orphaned ∧ x.holder = some s ∧ memberOf s r = true then
        r.onSlab i (fun y => { y with state := .claimed })
      else r := by
  unfold judgeReclaim
  rw [hx]
  exact apply_ite Judged.rep _ _ _

theorem judgeFreeOrphan_rep {i : SlabId} {r : Replica} {x : Slab} (hx : r.slab? i = some x) :
    (judgeFreeOrphan i r).rep =
      if x.state = .orphaned then r.onSlab i (fun y => { y with state := .free, holder := none }) else r := by
  unfold judgeFreeOrphan
  rw [hx]
  exact apply_ite Judged.rep _ _ _

theorem judgeScrap_rep {i : SlabId} {r : Replica} {x : Slab} (hx : r.slab? i = some x) :
    (judgeScrap i r).rep = if x.state = .free then r.dropSlab i else r := by
  unfold judgeScrap
  rw [hx]
  exact apply_ite Judged.rep _ _ _

/-- A frame on an id of no record is void (R72). -/
theorem judge_absent {c : Ctx} {s : Nat} {k : Kind} {f : SlabId → Change} {i : SlabId} {r : Replica}
    (h : k.changeOfId = some f) (hi : r.slab? i = none) : (judge c s (f i) r).rep = r := by
  cases k <;> cases h
  case claim => simp [judge, judgeClaim, hi, voidFor]
  case release => simp [judge, judgeRelease, hi, voidFor]
  case reclaim => simp [judge, judgeReclaim, hi, voidFor]
  case freeOrphan => simp [judge, judgeFreeOrphan, hi, voidFor]
  case scrap => simp [judge, judgeScrap, hi, voidFor]

/-- A frame on one slab id that names no record is void (R72, R197). -/
theorem judgeFrame_of_no_record {c : Ctx} {s : Nat} {k : Kind} {f : SlabId → Change} {p : List Byte} {r : Replica}
    (h : k.changeOfId = some f) (hp : ∀ i, idPayload p = some i → r.slab? i = none) :
    (judgeFrame c s k p r).rep = r := by
  cases hi : idPayload p with
  | none => exact judgeFrame_unparsed ((parseChange_changeOfId h p).trans (congrArg _ hi)) r
  | some i => rw [judgeFrame_idPayload h hi, judge_absent h (hp i hi)]

/-- Settles O29: each frame's judgment on the record of its id (`judgeClaim_rep` and the lemmas beside it), and the void
ones by `judgeFrame_of_no_record`. -/
theorem stockFramesMoveTheirRecord : Obligations.StockFramesMoveTheirRecord := by
  intro sender g p s ht r set frames
  have absent (h : ∀ i, idPayload p = some i → r.slab? i = none) : ∀ o ∈ frames, s.becomes g r o := by
    have hframes : frames = Kind.onOneId.map (fun k => s.frameIn k sender 0 g p) := rfl
    rw [hframes, List.forall_mem_map]
    intro k hk
    obtain ⟨hchange, f, hf⟩ := Kind.onOneId_change hk
    have := frameIn_becomes ht hchange
    rwa [judgeFrame_of_no_record hf h] at this
  refine ⟨fun a b i x hp hi hx => ?_, fun a b i hp hi hnone => absent (fun j hj => ?_),
    fun hnone => absent (fun i hi => ?_)⟩
  · have hid : idPayload p = some i := by rw [hp]; exact hi
    have moves {k : Kind} {f : SlabId → Change} {r' : Replica} (hf : k.changeOfId = some f) (hk : k.isChange = true)
        (e : (judge (Ctx.whole g) sender.toNat (f i) r).rep = r') : s.becomes g r' (s.frameIn k sender 0 g p) := by
      rw [← e, ← judgeFrame_idPayload hf hid]
      exact frameIn_becomes ht hk
    refine ⟨fun h => ?_, fun h => ?_, fun h => ?_, fun h => ?_, fun h => ?_, fun h => ?_, fun h => ?_, fun h => ?_,
      fun h => ?_, fun h => ?_⟩
    · exact moves (k := .claim) rfl rfl ((judgeClaim_rep hx).trans (if_pos h))
    · exact moves (k := .claim) rfl rfl ((judgeClaim_rep hx).trans (if_neg h))
    · exact moves (k := .release) rfl rfl ((judgeRelease_rep hx).trans (if_pos h))
    · exact moves (k := .release) rfl rfl ((judgeRelease_rep hx).trans (if_neg h))
    · exact moves (k := .reclaim) rfl rfl ((judgeReclaim_rep hx).trans (if_pos h))
    · exact moves (k := .reclaim) rfl rfl ((judgeReclaim_rep hx).trans (if_neg h))
    · exact moves (k := .freeOrphan) rfl rfl ((judgeFreeOrphan_rep hx).trans (if_pos h))
    · exact moves (k := .freeOrphan) rfl rfl ((judgeFreeOrphan_rep hx).trans (if_neg h))
    · exact moves (k := .scrap) rfl rfl ((judgeScrap_rep hx).trans (if_pos h))
    · exact moves (k := .scrap) rfl rfl ((judgeScrap_rep hx).trans (if_neg h))
  · have hid : idPayload p = some i := by rw [hp]; exact hi
    rw [hid] at hj
    cases hj
    exact hnone
  · rw [hnone] at hi
    cases hi

/-! ## CONSUME (R83, R84) -/

theorem Remnant.lawful_iff (m : Remnant) :
    m.lawful = true ↔
      (1 ≤ m.serial ∧ m.serial ≤ 4095) ∧ (100 ≤ m.length ∧ m.length ≤ 4000) ∧ 100 ≤ m.width ∧ m.width ≤ 2200 := by
  simp [Remnant.lawful, within_iff, and_assoc]

/-- The remnants of a CONSUME are read back from their bytes (R197). -/
theorem remnantsOf_bytes {rs : List Remnant} (h : ∀ m ∈ rs, m.lawful = true) :
    remnantsOf (rs.map Remnant.bytes).flatten = some rs := by
  induction rs with
  | nil => rfl
  | cons m rest ih =>
    have hm : m.lawful = true := h m List.mem_cons_self
    obtain ⟨hs, hl, hw⟩ := (Remnant.lawful_iff m).mp hm
    have es := be16_byte1 (n := m.serial) (by omega)
    have el := be16_byte1 (n := m.length) (by omega)
    have ew := be16_byte1 (n := m.width) (by omega)
    simp only [List.map_cons, List.flatten_cons, Remnant.bytes, bytes2, List.cons_append, List.nil_append, remnantsOf,
      ih (fun x hx => h x (List.mem_cons_of_mem m hx)), es, el, ew]
    exact if_pos hm

/-- The payload of a CONSUME with its fields in range is read back (R83, R197). -/
theorem parseChange_consumePayload {i : SlabId} {total : Nat} {rs : List Remnant} (abandoned : Bool)
    (hi : i.lawful = true) (ht : total ≤ 8800000) (hlen : rs.length ≤ 3) (hrs : ∀ m ∈ rs, m.lawful = true) :
    parseChange .consume (consumePayload i abandoned total rs) = some (.consume i abandoned total rs) := by
  have htotal := be32_byte1 (n := total) (by simp only [maxSum]; omega)
  have hcount : (byte1 rs.length).toNat = rs.length := byte1_toNat (by omega)
  have hflag : (flag abandoned).toNat ≤ 1 ∧ decide ((flag abandoned).toNat = 1) = abandoned := by
    cases abandoned <;> exact ⟨by decide, rfl⟩
  simp only [consumePayload, bytes2, bytes4, List.cons_append, List.nil_append, parseChange,
    be16_byte1 (SlabId.code_le hi), SlabId.ofCode_code hi, remnantsOf_bytes hrs, htotal, hcount, hflag.2]
  exact if_pos (by simp [hflag.1, ht, hlen])

/-- The remnants are recorded in their order, in a complete table (R84). -/
theorem recordRemnants_records (g : Word16) (s : Nat) (parent : Slab) (ms : List Remnant) :
    ∀ (r : Replica) (area lost : Nat) (news : List SlabId), Slots.wf r.slabs = true →
      recordsRemnants 160 false (ms.map (remnantSlab s parent)) r
        (recordRemnants (Ctx.whole g) s parent ms r area lost news).1 := by
  induction ms with
  | nil => exact fun _ _ _ _ _ => rfl
  | cons m rest ih =>
    intro r area lost news hwf
    unfold recordRemnants
    dsimp only
    split
    · next hheld => exact Or.inl ⟨Replica.slab?_isSome_iff.mp hheld, ih r _ _ _ hwf⟩
    · next hnew =>
      have hid : ∀ y ∈ r.allSlabs, y.id ≠ (remnantSlab s parent m).id :=
        Replica.slab?_eq_none_iff.mp (by simpa using hnew)
      refine Or.inr ⟨hid, ?_⟩
      cases hfree : Slots.lowestFree 160 r.slabs with
      | some n =>
        obtain ⟨hn, hlow⟩ := (Slots.lowestFree_eq_some_iff hwf).mp hfree
        rw [Replica.insertSlab_of_lowestFree (c := Ctx.whole g) hfree]
        exact Or.inl ⟨n, hn, hlow, ih _ _ _ _ (Slots.wf_set hwf)⟩
      | none =>
        rw [Replica.insertSlab_full (c := Ctx.whole g) rfl hfree]
        exact Or.inr ⟨(Slots.lowestFree_eq_none_iff hwf).mp hfree, ih r _ _ _ hwf⟩

/-- The pieces and the remnants of a CONSUME find room in the parent, which the sender has CLAIMED (R83). -/
def mayConsume (s total : Nat) (ms : List Remnant) (x : Slab) : Prop :=
  x.state = .claimed ∧ x.holder = some s ∧ total + (ms.map (fun m => m.length * m.width)).sum ≤ x.length * x.width

theorem judgeConsume_taken {c : Ctx} {s : Nat} {i : SlabId} {abandoned : Bool} {total : Nat} {ms : List Remnant}
    {r : Replica} {x : Slab} (hx : r.slab? i = some x) (h : mayConsume s total ms x) :
    (judgeConsume c s i abandoned total ms r).rep = (recordRemnants c s x ms (r.dropSlab i) 0 0 []).1 := by
  unfold judgeConsume
  rw [hx]
  exact congrArg Judged.rep (if_pos h)

theorem judgeConsume_void {c : Ctx} {s : Nat} {i : SlabId} {abandoned : Bool} {total : Nat} {ms : List Remnant}
    {r : Replica} (h : ∀ x, r.slab? i = some x → ¬ mayConsume s total ms x) :
    (judgeConsume c s i abandoned total ms r).rep = r := by
  unfold judgeConsume
  cases hx : r.slab? i with
  | none => rfl
  | some x => exact congrArg Judged.rep (if_neg (h x hx))

/-- Settles O30: the payload is read back (`parseChange_consumePayload`), and a taken CONSUME records its remnants over the
table without the parent (`recordRemnants_records`). -/
theorem consumeFrameLeavesItsRemnants : Obligations.ConsumeFrameLeavesItsRemnants := by
  intro sender g i abandoned total rs s p ht hi htotal hlen hrs hwf r o without remnant
  have becomes : ∀ r', (judgeConsume (Ctx.whole g) sender.toNat i abandoned total rs r).rep = r' → s.becomes g r' o := by
    intro r' e
    have h : s.becomes g (judgeFrame (Ctx.whole g) sender.toNat .consume p r).rep o := frameIn_becomes ht rfl
    rw [judgeFrame_of_parse (parseChange_consumePayload abandoned hi htotal hlen hrs)] at h
    exact e ▸ h
  refine ⟨fun x hx hstate hholder harea => ?_, fun hnone => becomes r (judgeConsume_void (fun x hx => ?_)),
    fun x hx hvoid => becomes r (judgeConsume_void (fun y hy hmay => ?_))⟩
  · refine ⟨_, ?_, becomes _ (judgeConsume_taken hx ⟨hstate, hholder, harea⟩)⟩
    have hremnant : remnant x = remnantSlab sender.toNat x := by
      funext m
      simp only [remnant, remnantSlab, (Replica.slab?_some hx).2]
    rw [hremnant]
    exact recordRemnants_records g sender.toNat x rs (r.dropSlab i) 0 0 [] (Slots.wf_filter hwf)
  · rw [hnone] at hx
    cases hx
  · rw [hx] at hy
    cases hy
    obtain ⟨hstate, hholder, harea⟩ := hmay
    rcases hvoid with h | h | h
    · exact h hstate
    · exact h hholder
    · omega

end Sys2Proof.Machine

/-! The stock and job requests (R66, R87, R171): the checks in their order, and the frame queued. -/

namespace Sys2Proof.Machine

/-! ## A request's answer (R184, R186) -/

/-- A request served is answered by its act (R184). -/
theorem State.run_request {s : State} (h : s.asked) (act : Station → Answer) :
    s.run (Station.request act) = .next { s with dev := (act s.dev).sent } := by
  have hreq : s.dev.request act = (act s.dev).sent := (if_pos h.1).trans (if_neg h.2)
  exact congrArg (fun d => Host.Outcome.next { s with dev := d }) hreq

/-- A request that changes nothing but the reply (R186). -/
theorem State.run_request_says {s : State} {act : Station → Answer} {st : Status} {payload : List Byte} (h : s.asked)
    (ha : act s.dev = s.dev.says st payload) : s.run (Station.request act) = .next (s.answered st payload) := by
  rw [State.run_request h, ha]
  rfl

/-- A request that is refused (R186). -/
theorem State.run_request_refuses {s : State} {act : Station → Answer} {st : Status} (h : s.asked)
    (ha : act s.dev = s.dev.refuses st) : s.run (Station.request act) = .next (s.answered st []) :=
  State.run_request_says h ha

/-- A frame offered by a MEMBER with room in the queue joins it, and the request is answered QUEUED (R14, R186). -/
theorem State.queues_queued {s : State} (hm : s.dev.blk.pres.mem = .member) (hroom : ¬ 12 ≤ s.dev.blk.line.queue.length)
    (f : Frame) (payload : List Byte) :
    ({ s with dev := (s.dev.queues f payload).sent } : State) = s.queued f payload := by
  have hoffer : s.dev.blk.offer .host f = { s.dev.blk with line := s.dev.blk.line.enqueue .host f } :=
    (Blocks.offer_of_offers (by rw [hm]; rfl) _ _).trans
      (congrArg (fun l => { s.dev.blk with line := l }) (if_pos (Nat.lt_of_not_le hroom)))
  exact congrArg (fun b => State.answered { s with dev.blk := b } .queued payload) hoffer

theorem Blocks.queueFull_iff (b : Blocks) : b.queueFull = true ↔ 12 ≤ b.line.queue.length := by
  simp [Blocks.queueFull]

/-- The last check of a request that queues a frame: the outbound queue has room (R186). -/
def Station.queuesUnlessFull (f : Frame) (d : Station) : Answer :=
  if d.blk.queueFull then d.refuses .full else d.queues f []

/-- The last two checks of a request that queues a frame: its record is in the state it needs, and the queue has room
(R87, R171). -/
theorem State.run_request_checks {s : State} {act : Station → Answer} {ok : Prop} [Decidable ok] {f : Frame}
    (h : s.asked) (hl : s.isLive)
    (ha : act s.dev = if ¬ ok then s.dev.refuses .wrongState else s.dev.queuesUnlessFull f) :
    (¬ ok → s.run (Station.request act) = .next (s.answered .wrongState [])) ∧
      (ok → 12 ≤ s.dev.blk.line.queue.length → s.run (Station.request act) = .next (s.answered .full [])) ∧
      (ok → ¬ 12 ≤ s.dev.blk.line.queue.length → s.run (Station.request act) = .next (s.queued f [])) := by
  refine ⟨fun hok => State.run_request_refuses h (ha.trans (if_pos hok)), fun hok hfull => ?_, fun hok hroom => ?_⟩
  · have hact : act s.dev = s.dev.queuesUnlessFull f := ha.trans (if_neg (not_not_intro hok))
    exact State.run_request_refuses h (hact.trans (if_pos ((Blocks.queueFull_iff _).mpr hfull)))
  · have hact : act s.dev = s.dev.queuesUnlessFull f := ha.trans (if_neg (not_not_intro hok))
    have hqueues : s.dev.queuesUnlessFull f = s.dev.queues f [] :=
      if_neg (fun hfull => hroom ((Blocks.queueFull_iff _).mp hfull))
    rw [State.run_request h, hact, hqueues, State.queues_queued hl.1 hroom]

/-! ## REGISTER_SLAB (R66, R87) -/

theorem firstFree_of_not_mem {used : List Nat} {serial : Nat} (h : serial ∉ used) (n : Nat) :
    firstFree used (n + 1) serial = serial := if_neg (by simpa using h)

section registerSlab

variable {material thickness length width rack rate : Nat} {d : Station}

theorem Station.registerSlab_outOfRange (h : slabFieldsOk material thickness length width = false) :
    d.registerSlab material thickness length width rack rate = d.refuses .badField := if_pos (by simp [h])

theorem Station.registerSlab_notLive (h : slabFieldsOk material thickness length width = true)
    (hl : live d.shop d.blk = false) :
    d.registerSlab material thickness length width rack rate = d.refuses .notLive :=
  (if_neg (by simp [h])).trans (if_pos (by simp [hl]))

theorem Station.registerSlab_full (h : slabFieldsOk material thickness length width = true)
    (hl : live d.shop d.blk = true) (hfull : 12 ≤ d.blk.line.queue.length) :
    d.registerSlab material thickness length width rack rate = d.refuses .full :=
  (if_neg (by simp [h])).trans ((if_neg (by simp [hl])).trans (if_pos ((Blocks.queueFull_iff _).mpr hfull)))

/-- A slab is registered: the counter moves on past the serial that its frame takes (R66). -/
theorem Station.registerSlab_queues (h : slabFieldsOk material thickness length width = true)
    (hl : live d.shop d.blk = true) (hroom : ¬ 12 ≤ d.blk.line.queue.length) :
    d.registerSlab material thickness length width rack rate =
      (d.onBlk (fun sh b => b.serialTaken sh)).queues
        (mkFrame .slabAdd (slabAddPayload d.blk.pres.serial material thickness length width rack rate))
        (bytes2 (SlabId.code { origin := d.blk.pres.station, serial := d.blk.pres.serial })) :=
  (if_neg (by simp [h])).trans ((if_neg (by simp [hl])).trans
    (if_neg (fun hfull => hroom ((Blocks.queueFull_iff _).mp hfull))))

end registerSlab

/-! ## SCRAP_SLAB and FREE_ORPHAN (R87) -/

section onRecord

variable {code : Nat} {needs : SlabState} {k : Kind} {d : Station} {i : SlabId}

theorem Station.onRecord_noId (h : SlabId.ofCode code = none) : d.onRecord code needs k = d.refuses .badField := by
  unfold Station.onRecord
  rw [h]

theorem Station.onRecord_notLive (h : SlabId.ofCode code = some i) (hl : live d.shop d.blk = false) :
    d.onRecord code needs k = d.refuses .notLive := by
  unfold Station.onRecord
  rw [h]
  exact if_pos (by simp [hl])

theorem Station.onRecord_absent (h : SlabId.ofCode code = some i) (hl : live d.shop d.blk = true)
    (hx : d.shop.rep.slab? i = none) : d.onRecord code needs k = d.refuses .notFound := by
  unfold Station.onRecord
  rw [h]
  refine (if_neg (by simp [hl])).trans ?_
  rw [hx]

theorem Station.onRecord_found {x : Slab} (h : SlabId.ofCode code = some i) (hl : live d.shop d.blk = true)
    (hx : d.shop.rep.slab? i = some x) :
    d.onRecord code needs k =
      if ¬ x.state = needs then d.refuses .wrongState else d.queuesUnlessFull (mkFrame k (bytes2 i.code)) := by
  unfold Station.onRecord
  rw [h]
  refine (if_neg (by simp [hl])).trans ?_
  rw [hx]
  rfl

end onRecord

/-! ## OPEN_JOB, CLOSE_JOB and READ_JOB (R171) -/

section jobs

variable {n : Nat} {d : Station}

theorem jobActive_eq_true {r : Replica} {x : Job} (hx : r.job? n = some x) (h : x.state ≠ .closed) :
    jobActive n r = true := by
  unfold jobActive
  rw [hx]
  exact bne_iff_ne.mpr h

theorem jobActive_eq_false {r : Replica} (h : ∀ x, r.job? n = some x → x.state = .closed) :
    jobActive n r = false := by
  unfold jobActive
  cases hx : r.job? n with
  | none => rfl
  | some x => simp [h x hx]

theorem Station.openJob_notLive (hn : n ≠ 0) (hl : live d.shop d.blk = false) : d.openJob n = d.refuses .notLive :=
  (if_neg hn).trans (if_pos (by simp [hl]))

theorem Station.openJob_live (hn : n ≠ 0) (hl : live d.shop d.blk = true) :
    d.openJob n =
      if ¬ jobActive n d.shop.rep = false then d.refuses .wrongState
      else d.queuesUnlessFull (mkFrame .jobOpen (bytes2 n)) :=
  (if_neg hn).trans ((if_neg (by simp [hl])).trans (if_congr (by simp) rfl rfl))

theorem Station.closeJob_notLive (hn : n ≠ 0) (hl : live d.shop d.blk = false) : d.closeJob n = d.refuses .notLive :=
  (if_neg hn).trans (if_pos (by simp [hl]))

theorem Station.closeJob_absent (hn : n ≠ 0) (hl : live d.shop d.blk = true) (hx : d.shop.rep.job? n = none) :
    d.closeJob n = d.refuses .notFound := by
  refine (if_neg hn).trans ((if_neg (by simp [hl])).trans ?_)
  rw [hx]

theorem Station.closeJob_found {x : Job} (hn : n ≠ 0) (hl : live d.shop d.blk = true)
    (hx : d.shop.rep.job? n = some x) :
    d.closeJob n =
      if ¬ x.state = .opened then d.refuses .wrongState else d.queuesUnlessFull (mkFrame .jobClose (bytes2 n)) := by
  refine (if_neg hn).trans ((if_neg (by simp [hl])).trans ?_)
  rw [hx]
  rfl

theorem Station.readJob_absent (hn : n ≠ 0) (hx : d.shop.rep.job? n = none) : d.readJob n = d.refuses .notFound := by
  have hfind : d.shop.rep.findJob n = none := Option.map_eq_none_iff.mp hx
  refine (if_neg hn).trans ?_
  rw [hfind]

theorem Station.readJob_found {slot : Option Nat} {x : Job} (hn : n ≠ 0) (hx : d.shop.rep.findJob n = some (slot, x)) :
    d.readJob n = d.says .ok (slotByte slot :: x.body) := by
  refine (if_neg hn).trans ?_
  rw [hx]
  rfl

end jobs

/-! ## O42 -/

theorem live_eq_false {s : State} (h : ¬ s.isLive) : live s.dev.shop s.dev.blk = false :=
  live_false_of_not_isLive h rfl

/-- Settles O42: each request's act by its equations, one a check, in the order of R87 and R171. -/
theorem stockAndJobRequestsQueueTheirFrames : Obligations.StockAndJobRequestsQueueTheirFrames := by
  refine ⟨fun s ha => ⟨fun m t l w rack rate => ?_, fun c id k needs hc => ?_⟩, fun s n ha => ?_⟩
  · intro o inRange frame id after
    refine ⟨fun h => ?_, fun h hl => ?_, fun h hl hfull => ?_, fun h hl hroom => ?_⟩
    · exact State.run_request_refuses ha (Station.registerSlab_outOfRange h)
    · exact State.run_request_refuses ha (Station.registerSlab_notLive h (live_eq_false hl))
    · exact State.run_request_refuses ha (Station.registerSlab_full h ((live_iff s).mpr hl) hfull)
    · let n := firstFree (usedSerials s.dev.shop s.dev.blk) 256 (serialAfter s.dev.blk.pres.serial)
      have hqueued : o = .next ({ s with dev.blk.pres.serial := n }.queued frame id) := by
        refine (State.run_request ha _).trans (congrArg Host.Outcome.next ?_)
        rw [Station.registerSlab_queues h ((live_iff s).mpr hl) hroom]
        exact State.queues_queued (s := { s with dev.blk.pres.serial := n }) hl.1 hroom frame id
      refine ⟨⟨n, hqueued⟩, fun hafter => ?_⟩
      have hn : n = after := firstFree_of_not_mem hafter 255
      rw [← hn]
      exact hqueued
  · have hexec : exec c s = s.run (Station.request (Station.onRecord id.toNat needs k)) := by
      rcases hc with ⟨rfl, rfl, rfl⟩ | ⟨rfl, rfl, rfl⟩ <;> rfl
    rw [hexec]
    refine ⟨fun h => ?_, fun i hi => ⟨fun hl => ?_, fun hl hx => ?_, fun x hl hx => ?_⟩⟩
    · exact State.run_request_refuses ha (Station.onRecord_noId h)
    · exact State.run_request_refuses ha (Station.onRecord_notLive hi (live_eq_false hl))
    · exact State.run_request_refuses ha (Station.onRecord_absent hi ((live_iff s).mpr hl) hx)
    · exact State.run_request_checks ha hl (Station.onRecord_found hi ((live_iff s).mpr hl) hx)
  · intro full r
    refine ⟨fun hn => ?_, fun hn0 => ?_⟩
    · subst hn
      simp only [List.forall_mem_cons, List.not_mem_nil, false_implies, implies_true, and_true]
      exact ⟨State.run_request_refuses ha rfl, State.run_request_refuses ha rfl, State.run_request_refuses ha rfl⟩
    · have hn : n.toNat ≠ 0 := fun e => hn0 (BitVec.eq_of_toNat_eq e)
      refine ⟨fun hl => ⟨?_, ?_⟩, fun hl => ?_, fun hx => ?_, fun slot x hx => ?_, fun x hx => ?_⟩
      · exact State.run_request_refuses ha (Station.openJob_notLive hn (live_eq_false hl))
      · exact State.run_request_refuses ha (Station.closeJob_notLive hn (live_eq_false hl))
      · have hlive := (live_iff s).mpr hl
        obtain ⟨hactive, hfull, hroom⟩ := State.run_request_checks ha hl (Station.openJob_live hn hlive)
        refine ⟨fun x hx h => ?_, fun h => ?_, fun hx => ?_, fun x hx => ?_⟩
        · exact hactive (fun e => Bool.false_ne_true (e.symm.trans (jobActive_eq_true hx h)))
        · exact ⟨hfull (jobActive_eq_false h), hroom (jobActive_eq_false h)⟩
        · exact State.run_request_refuses ha (Station.closeJob_absent hn hlive hx)
        · exact State.run_request_checks ha hl (Station.closeJob_found hn hlive hx)
      · exact State.run_request_refuses ha (Station.readJob_absent hn hx)
      · exact State.run_request_says ha (Station.readJob_found hn hx)
      · exact State.run_request_says ha (Station.readJob_found hn hx)

end Sys2Proof.Machine

/-! Cutback and top-up (R92, R93), read entry by entry: what each takes or gives, and the sum that they leave. -/

namespace Sys2Proof.Machine

/-! ## Sums of grants (R88) -/

@[simp] theorem grantSum_nil : grantSum [] = 0 := rfl

@[simp] theorem grantSum_cons (e : Entry) (l : List Entry) : grantSum (e :: l) = e.granted + grantSum l := rfl

@[simp] theorem grantSum_append (l m : List Entry) : grantSum (l ++ m) = grantSum l + grantSum m := by
  simp [grantSum]

@[simp] theorem grantSum_reverse (l : List Entry) : grantSum l.reverse = grantSum l := by
  simp [grantSum, List.sum_reverse]

theorem grantSum_filter_le (q : Entry → Bool) (l : List Entry) : grantSum (l.filter q) ≤ grantSum l :=
  ((List.filter_sublist (p := q)).map _).sum_le_sum (fun _ _ => Nat.zero_le _)

/-- An entry's grant is in the sum of every run of entries that holds it. -/
theorem granted_le_grantSum {e : Entry} {l : List Entry} (h : e ∈ l) : e.granted ≤ grantSum l :=
  List.single_le_sum (fun _ _ => Nat.zero_le _) _ (List.mem_map_of_mem h)

/-! ## Cutback (R92) -/

theorem cutNewest_append (l m : List Entry) :
    ∀ x : Nat, cutNewest x (l ++ m) = cutNewest x l ++ cutNewest (x - grantSum l) m := by
  induction l with
  | nil => exact fun _ => rfl
  | cons e rest ih =>
    intro x
    have hx : x - min x e.granted - grantSum rest = x - (e.granted + grantSum rest) := by omega
    simp only [List.cons_append, cutNewest, ih, hx, grantSum_cons]

/-- Cutback of an excess from a list of entries that has the oldest first. -/
def cutFrom (x : Nat) (l : List Entry) : List Entry := (cutNewest x l.reverse).reverse

theorem Ledger.cutback_entries (l : Ledger) : l.cutback.entries = cutFrom (grantSum l.entries - l.budget) l.entries := rfl

/-- An entry loses what the newer ones could not take of the excess. -/
theorem cutFrom_cons (x : Nat) (e : Entry) (l : List Entry) :
    cutFrom x (e :: l) = { e with granted := e.granted - (x - grantSum l) } :: cutFrom x l := by
  have hmin : ∀ y : Nat, e.granted - min y e.granted = e.granted - y := fun y => by omega
  simp [cutFrom, cutNewest_append, cutNewest, hmin]

theorem cutFrom_asks (x : Nat) (l : List Entry) :
    (cutFrom x l).map (fun e => (e.station, e.asked)) = l.map (fun e => (e.station, e.asked)) := by
  induction l with
  | nil => rfl
  | cons e rest ih => rw [cutFrom_cons, List.map_cons, List.map_cons, ih]

theorem grantSum_cutFrom (x : Nat) (l : List Entry) : grantSum (cutFrom x l) = grantSum l - x := by
  induction l with
  | nil => exact (Nat.zero_sub x).symm
  | cons e rest ih =>
    rw [cutFrom_cons, grantSum_cons, grantSum_cons, ih]
    dsimp only
    omega

theorem cutFrom_zero (l : List Entry) : cutFrom 0 l = l := by
  induction l with
  | nil => rfl
  | cons e rest ih => simp [cutFrom_cons, ih]

/-- Cutback lowers grants only, and where it lowers one it has left nothing to the newer entries (R92). -/
theorem cutFrom_newest_first (x : Nat) (l : List Entry) :
    ∀ (i : Nat) (e e' : Entry), l[i]? = some e → (cutFrom x l)[i]? = some e' →
      e'.granted ≤ e.granted ∧
      (e'.granted < e.granted → ∀ (j : Nat) (f : Entry), i < j → (cutFrom x l)[j]? = some f → f.granted = 0) := by
  induction l with
  | nil => exact fun i e e' h => absurd h (by simp)
  | cons a rest ih =>
    intro i e e' he he'
    rw [cutFrom_cons] at he' ⊢
    cases i with
    | zero =>
      obtain rfl : a = e := by simpa using he
      obtain rfl := Option.some.inj he'
      refine ⟨Nat.sub_le _ _, fun hlt j f hj hf => ?_⟩
      obtain ⟨k, rfl⟩ := Nat.exists_eq_succ_of_ne_zero (Nat.ne_of_gt hj)
      have hsum := granted_le_grantSum (List.mem_of_getElem? (l := cutFrom x rest) hf)
      rw [grantSum_cutFrom] at hsum
      dsimp only at hlt
      omega
    | succ n =>
      obtain ⟨hle, hnewer⟩ := ih n e e' he he'
      refine ⟨hle, fun hlt j f hj hf => ?_⟩
      obtain ⟨k, rfl⟩ := Nat.exists_eq_succ_of_ne_zero (Nat.ne_of_gt (Nat.lt_of_le_of_lt (Nat.zero_le _) hj))
      exact hnewer hlt k f (Nat.lt_of_succ_lt_succ hj) hf

/-! ## Top-up (R93) -/

/-- What the short entries of a list fall short of their asked values by. -/
def shortfall (l : List Entry) : Nat := (l.map (fun e => e.asked - e.granted)).sum

@[simp] theorem shortfall_cons (e : Entry) (l : List Entry) :
    shortfall (e :: l) = (e.asked - e.granted) + shortfall l := rfl

theorem Ledger.topUp_entries (l : Ledger) : l.topUp.entries = topOldest (l.budget - grantSum l.entries) l.entries := rfl

theorem topOldest_asks (l : List Entry) :
    ∀ room : Nat, (topOldest room l).map (fun e => (e.station, e.asked)) = l.map (fun e => (e.station, e.asked)) := by
  induction l with
  | nil => exact fun _ => rfl
  | cons e rest ih => exact fun room => congrArg ((e.station, e.asked) :: ·) (ih _)

/-- Top-up gives out the room, or all that is short. -/
theorem grantSum_topOldest (l : List Entry) :
    ∀ room : Nat, grantSum (topOldest room l) = grantSum l + min room (shortfall l) := by
  induction l with
  | nil => exact fun room => by simp [topOldest, shortfall]
  | cons e rest ih =>
    intro room
    simp only [topOldest, grantSum_cons, shortfall_cons, ih]
    omega

theorem topOldest_zero (l : List Entry) : topOldest 0 l = l := by
  induction l with
  | nil => rfl
  | cons e rest ih => simp [topOldest, ih]

/-- With room for all that is short, no entry stays short (R93). -/
theorem topOldest_fills (l : List Entry) :
    ∀ room : Nat, shortfall l ≤ room → ∀ e ∈ topOldest room l, e.asked ≤ e.granted := by
  induction l with
  | nil => exact fun _ _ e he => absurd he List.not_mem_nil
  | cons a rest ih =>
    intro room hroom e he
    rw [shortfall_cons] at hroom
    rcases List.mem_cons.mp he with rfl | he
    · dsimp only
      omega
    · exact ih _ (by omega) e he

/-- Top-up raises short entries only, none past its asked value, and where it leaves one short the newer entries stand as
they were (R93). -/
theorem topOldest_oldest_first (l : List Entry) :
    ∀ (room i : Nat) (e e' : Entry), l[i]? = some e → (topOldest room l)[i]? = some e' →
      e.granted ≤ e'.granted ∧ (e.granted < e'.granted → e'.granted ≤ e.asked) ∧
      (e'.granted < e'.asked → ∀ (j : Nat) (f f' : Entry), i < j → l[j]? = some f →
        (topOldest room l)[j]? = some f' → f'.granted = f.granted) := by
  induction l with
  | nil => exact fun _ i e e' h => absurd h (by simp)
  | cons a rest ih =>
    intro room i e e' he he'
    cases i with
    | zero =>
      obtain rfl : a = e := by simpa using he
      obtain rfl := Option.some.inj he'
      dsimp only
      refine ⟨Nat.le_add_right _ _, fun h => by omega, fun hshort j f f' hj hf hf' => ?_⟩
      obtain ⟨k, rfl⟩ := Nat.exists_eq_succ_of_ne_zero (Nat.ne_of_gt hj)
      have hspent : room - min room (a.asked - a.granted) = 0 := by omega
      rw [topOldest, hspent, topOldest_zero] at hf'
      exact congrArg Entry.granted (Option.some.inj (hf'.symm.trans hf))
    | succ n =>
      obtain ⟨hle, hcap, hnewer⟩ := ih _ n e e' he he'
      refine ⟨hle, hcap, fun hshort j f f' hj hf hf' => ?_⟩
      obtain ⟨k, rfl⟩ := Nat.exists_eq_succ_of_ne_zero (Nat.ne_of_gt (Nat.lt_of_le_of_lt (Nat.zero_le _) hj))
      exact hnewer hshort k f f' (Nat.lt_of_succ_lt_succ hj) hf hf'

/-! ## The two together -/

theorem grantSum_topUp {l : Ledger} (h : grantSum l.entries ≤ l.budget) :
    grantSum l.topUp.entries = min l.budget (grantSum l.entries + shortfall l.entries) := by
  rw [Ledger.topUp_entries, grantSum_topOldest]
  omega

/-- Settles O24: cutback and top-up read from the oldest entry (`cutFrom_cons`, `topOldest`), the order by
`cutFrom_newest_first` and `topOldest_oldest_first`, the sums by `grantSum_cutFrom` and `grantSum_topUp`. -/
theorem cutbackAndTopUpSettleTheLedger : Obligations.CutbackAndTopUpSettleTheLedger := by
  refine ⟨fun l => ⟨rfl, rfl, cutFrom_asks _ _, fun hfits => ?_, fun hover => ?_, cutFrom_newest_first _ _⟩,
    fun l hfits => ⟨rfl, rfl, topOldest_asks _ _, ?_, ?_, topOldest_oldest_first _ _⟩⟩
  · have hentries : l.cutback.entries = l.entries := by
      rw [Ledger.cutback_entries, Nat.sub_eq_zero_of_le hfits, cutFrom_zero]
    exact congrArg (Ledger.mk l.budget l.plant) hentries
  · rw [Ledger.cutback_entries, grantSum_cutFrom]
    omega
  · rw [grantSum_topUp hfits]
    exact Nat.min_le_left _ _
  · by_cases hroom : shortfall l.entries ≤ l.budget - grantSum l.entries
    · exact Or.inr (topOldest_fills _ _ hroom)
    · refine Or.inl ?_
      rw [grantSum_topUp hfits]
      omega

end Sys2Proof.Machine

/-! What a change frame leaves of the flow ledger (R88 to R91, R95): the grants stay within asks and budget, and BUDGET,
FLOW_ASK and FLOW_DROP as commands. -/

namespace Sys2Proof.Machine

/-! ## A sound ledger (R88) -/

/-- No grant above what was asked. -/
def grantsWithinAsks (l : List Entry) : Prop := ∀ e ∈ l, e.granted ≤ e.asked

/-- The soundness of the ledger, clause by clause. -/
structure Ledger.Sound (l : Ledger) : Prop where
  asks : grantsWithinAsks l.entries
  sum : grantSum l.entries ≤ l.budget

theorem Ledger.sound_iff (l : Ledger) : l.sound = true ↔ l.Sound := by
  simp only [Ledger.sound, Bool.and_eq_true, List.all_eq_true, decide_eq_true_eq]
  exact ⟨fun ⟨h1, h2⟩ => ⟨h1, h2⟩, fun ⟨h1, h2⟩ => ⟨h1, h2⟩⟩

theorem grantsWithinAsks.filter {l : List Entry} (h : grantsWithinAsks l) (q : Entry → Bool) :
    grantsWithinAsks (l.filter q) := fun e he => h e (List.mem_of_mem_filter he)

theorem grantsWithinAsks.append_one {l : List Entry} (h : grantsWithinAsks l) {e : Entry} (he : e.granted ≤ e.asked) :
    grantsWithinAsks (l ++ [e]) := by
  intro x hx
  rcases List.mem_append.mp hx with hx | hx
  · exact h x hx
  · rw [List.mem_singleton.mp hx]
    exact he

theorem grantsWithinAsks.cutFrom {l : List Entry} (h : grantsWithinAsks l) (x : Nat) :
    grantsWithinAsks (cutFrom x l) := by
  induction l with
  | nil => exact h
  | cons a rest ih =>
    obtain ⟨ha, hrest⟩ := List.forall_mem_cons.mp h
    rw [cutFrom_cons]
    exact List.forall_mem_cons.mpr ⟨(Nat.sub_le _ _).trans ha, ih hrest⟩

theorem grantsWithinAsks.topOldest {l : List Entry} (h : grantsWithinAsks l) :
    ∀ room : Nat, grantsWithinAsks (topOldest room l) := by
  induction l with
  | nil => exact fun _ => h
  | cons a rest ih =>
    obtain ⟨ha, hrest⟩ := List.forall_mem_cons.mp h
    intro room
    refine List.forall_mem_cons.mpr ⟨?_, ih hrest _⟩
    dsimp only
    omega

namespace Ledger.Sound

variable {l : Ledger}

theorem topUp (h : l.Sound) : l.topUp.Sound :=
  ⟨h.asks.topOldest _, (grantSum_topUp h.sum).trans_le (Nat.min_le_left _ _)⟩

/-- Cutback and top-up make a ledger sound whose grants lie within the asks, whatever their sum (R92, R93). -/
theorem settled (h : grantsWithinAsks l.entries) : l.settled.Sound := by
  refine Ledger.Sound.topUp ⟨h.cutFrom _, ?_⟩
  rw [Ledger.cutback_entries, grantSum_cutFrom]
  show _ ≤ l.budget
  omega

theorem without (h : l.Sound) (x : Nat) : (l.without x).Sound :=
  ⟨h.asks.filter _, (grantSum_filter_le _ _).trans h.sum⟩

/-- A drained ledger is sound (R94, R95). -/
theorem drained (l : List Entry) : ({ budget := 0, plant := none, entries := l.map (fun e => { e with granted := 0 }) } :
    Ledger).Sound := by
  refine ⟨fun e he => ?_, Nat.le_of_eq ?_⟩
  · obtain ⟨a, _, rfl⟩ := List.mem_map.mp he
    exact Nat.zero_le _
  · induction l with
    | nil => rfl
    | cons a rest ih => exact (Nat.zero_add _).trans ih

theorem leave (h : l.Sound) (x : Nat) : (l.leave x).Sound := by
  rw [Ledger.leave_eq]
  split
  · exact Ledger.Sound.drained _
  · split
    · exact (h.without x).topUp
    · exact h

end Ledger.Sound

/-! ## The judgments (R89 to R91, R95) -/

/-- The entry of a new ask is granted from the room that the other entries leave (R90). -/
theorem flowAsk_entries_within {l : Ledger} (h : l.Sound) (x asked : Nat) :
    grantsWithinAsks
      ((l.without x).entries ++ [{ station := x, asked := asked, granted := min asked (l.without x).room }]) :=
  (h.without x).asks.append_one (Nat.min_le_left _ _)

theorem Replica.insertSlab_ledger {c : Ctx} {x : Slab} {r q : Replica} {n : Option Nat}
    (h : r.insertSlab c x = some (q, n)) : q.ledger = r.ledger := by
  unfold Replica.insertSlab at h
  repeat' split at h
  · cases h
    rfl
  · cases h
  · cases h
    rfl

theorem recordRemnants_ledger (c : Ctx) (s : Nat) (p : Slab) (ms : List Remnant) :
    ∀ (r : Replica) (area lost : Nat) (news : List SlabId),
      (recordRemnants c s p ms r area lost news).1.ledger = r.ledger := by
  induction ms with
  | nil => exact fun _ _ _ _ => rfl
  | cons m rest ih =>
    intro r area lost news
    unfold recordRemnants
    dsimp only
    split
    · exact ih _ _ _ _
    · split
      · exact ih _ _ _ _
      · next q n hq => exact (ih _ _ _ _).trans (Replica.insertSlab_ledger hq)

/-- A frame of the stock and of the jobs, and a JOIN of a station that is no member, leave the ledger alone (R36, R41). -/
theorem judge_ledger_of_untouched {c : Ctx} {s : Nat} {ch : Change} {r : Replica}
    (h : ch.touchesLedger s r = false) : (judge c s ch r).rep.ledger = r.ledger := by
  cases ch with
  | budget | flowAsk | flowDrop | gone => exact absurd h (by simp [Change.touchesLedger])
  | join role =>
    have hm : memberOf s r = false := h
    simp [judge, judgeJoin, takenAs, hm]
  | slabAdd =>
    unfold judge judgeSlabAdd
    dsimp only
    repeat' split
    · rfl
    · rfl
    · next q n hq => exact Replica.insertSlab_ledger hq
  | claim | release | reclaim | scrap | freeOrphan | jobClose | costReport =>
    simp only [judge, judgeClaim, judgeRelease, judgeReclaim, judgeScrap, judgeFreeOrphan, judgeJobClose, judgeCostReport]
    repeat' split
    all_goals rfl
  | consume i abandoned total ms =>
    unfold judge judgeConsume
    dsimp only
    repeat' split
    · rfl
    · exact recordRemnants_ledger _ _ _ _ _ _ _ _
    · rfl
  | jobOpen n =>
    unfold judge judgeJobOpen
    dsimp only
    repeat' split
    all_goals rfl

theorem Replica.leave_ledger_sound {r : Replica} (h : r.ledger.Sound) (c : Ctx) (x : Nat) : (r.leave c x).ledger.Sound := by
  unfold Replica.leave
  dsimp only
  split
  · exact h.leave x
  · exact h

theorem judge_ledger_sound {r : Replica} (h : r.ledger.Sound) (c : Ctx) (s : Nat) (ch : Change) :
    (judge c s ch r).rep.ledger.Sound := by
  by_cases ht : ch.touchesLedger s r = true
  · cases ch with
    | budget value =>
      unfold judge judgeBudget
      dsimp only
      repeat' split
      · exact h
      · exact h
      · exact Ledger.Sound.settled h.asks
    | flowAsk asked =>
      unfold judge judgeFlowAsk
      dsimp only
      split
      · exact Ledger.Sound.settled (flowAsk_entries_within h s asked)
      · exact h
    | flowDrop =>
      unfold judge judgeFlowDrop
      dsimp only
      split
      · exact h
      · exact (h.without s).topUp
    | join role =>
      unfold judge judgeJoin
      dsimp only
      split
      · exact Replica.leave_ledger_sound h c s
      · exact h
    | gone x =>
      unfold judge judgeGone
      dsimp only
      split
      · exact Replica.leave_ledger_sound h c x
      · exact h
    | slabAdd | claim | release | reclaim | consume | scrap | freeOrphan | jobOpen | jobClose | costReport =>
      exact absurd ht Bool.false_ne_true
  · rw [judge_ledger_of_untouched (Bool.not_eq_true _ ▸ ht)]
    exact h

theorem judgeFrame_ledger_sound {r : Replica} (h : r.ledger.Sound) (c : Ctx) (s : Nat) (k : Kind) (p : List Byte) :
    (judgeFrame c s k p r).rep.ledger.Sound := by
  cases hp : parseChange k p with
  | none => exact (judgeFrame_unparsed hp r).symm ▸ h
  | some ch => exact (judgeFrame_of_parse hp r).symm ▸ judge_ledger_sound h c s ch

theorem Kind.command_exec {k : Kind} (hk : k.isChange = true) (sender target : BitVec 4) (g : Word16) (p : List Byte)
    (s : State) : exec (k.command sender target g p) s = s.frameIn k sender 0 g p := by
  cases k with
  | rebase | hello | syncAsk | snap => exact absurd hk Bool.false_ne_true
  | _ => rfl

/-- Settles O9: the replica becomes what the frame's judgment says (`frameIn_becomes`), and no judgment breaks the ledger
(`judge_ledger_sound`). -/
theorem takenFramesKeepTheLedgerSound : Obligations.TakenFramesKeepTheLedgerSound := by
  intro k sender target g p s hk ht hsound
  rw [Kind.command_exec hk]
  obtain ⟨t, heq, hshop, _⟩ := frameIn_becomes ht hk
  refine ⟨t, heq, (Ledger.sound_iff _).mpr ?_⟩
  rw [hshop]
  exact judgeFrame_ledger_sound ((Ledger.sound_iff _).mp hsound) _ _ _ _

/-! ## BUDGET (R89) -/

theorem parseChange_budget {a b : Byte} (h : be16 a b ≤ 8000) : parseChange .budget [a, b] = some (.budget (be16 a b)) :=
  if_pos h

theorem parseChange_budget_cases (p : List Byte) :
    parseChange .budget p = none ∨
      ∃ a b : Byte, p = [a, b] ∧ be16 a b ≤ 8000 ∧ parseChange .budget p = some (.budget (be16 a b)) := by
  unfold parseChange
  dsimp only
  split
  · split
    · next a b h => exact Or.inr ⟨a, b, rfl, h, rfl⟩
    · exact Or.inl rfl
  · exact Or.inl rfl

theorem judgeBudget_taken {s v : Nat} {r : Replica} (hrole : roleOf s r = some .plant)
    (hplant : r.ledger.plant = none ∨ r.ledger.plant = some s) :
    judgeBudget s v r = takenAs { r with ledger := Ledger.settled { r.ledger with budget := v, plant := some s } } := by
  unfold judgeBudget
  rw [if_neg (not_not_intro hrole), if_neg (by rcases hplant with h | h <;> simp [h])]

theorem judgeBudget_notPlant {s v : Nat} {r : Replica} (h : roleOf s r ≠ some .plant) :
    judgeBudget s v r = voidFor .notPlant r := if_pos h

theorem judgeBudget_otherPlant {s v x : Nat} {r : Replica} (hrole : roleOf s r = some .plant)
    (hplant : r.ledger.plant = some x) (hx : x ≠ s) : judgeBudget s v r = voidFor .otherPlant r := by
  unfold judgeBudget
  rw [if_neg (not_not_intro hrole), if_pos (by simp [hplant, hx])]

/-- A BUDGET that its payload or the replica makes void leaves the replica (R26, R89). -/
theorem judgeFrame_budget_void {c : Ctx} {s : Nat} {p : List Byte} {r : Replica}
    (h : parseChange .budget p = none ∨ roleOf s r ≠ some .plant ∨ ∃ x, r.ledger.plant = some x ∧ x ≠ s) :
    (judgeFrame c s .budget p r).rep = r := by
  rcases parseChange_budget_cases p with hp | ⟨a, b, _, _, hp⟩
  · exact judgeFrame_unparsed hp r
  · rw [judgeFrame_of_parse hp]
    show (judgeBudget s (be16 a b) r).rep = r
    by_cases hrole : roleOf s r = some .plant
    · rcases h with h | h | ⟨x, hx, hne⟩
      · rw [hp] at h
        exact absurd h (by simp)
      · exact absurd hrole h
      · rw [judgeBudget_otherPlant hrole hx hne]
        rfl
    · rw [judgeBudget_notPlant hrole]
      rfl

/-- Settles O25: a BUDGET taken is `judgeBudget_taken`, one void is `judgeFrame_budget_void`. -/
theorem budgetFrameSetsTheBudget : Obligations.BudgetFrameSetsTheBudget := by
  intro sender g p s ht r o
  have becomes : ∀ r', (judgeFrame (Ctx.whole g) sender.toNat .budget p r).rep = r' → s.becomes g r' o :=
    fun r' e => e ▸ frameIn_becomes ht rfl
  refine ⟨fun a b hp hv hrole hplant => becomes _ ?_, fun hrole => becomes _ (judgeFrame_budget_void (Or.inr (Or.inl hrole))),
    fun x hx hne => becomes _ (judgeFrame_budget_void (Or.inr (Or.inr ⟨x, hx, hne⟩))),
    fun hv => becomes _ (judgeFrame_budget_void (Or.inl ?_))⟩
  · rw [hp, judgeFrame_of_parse (parseChange_budget hv)]
    exact congrArg Judged.rep (judgeBudget_taken hrole hplant)
  · rcases parseChange_budget_cases p with h | ⟨a, b, hp, hle, _⟩
    · exact h
    · exact absurd (hv a b hp) (Nat.not_lt.mpr hle)

/-! ## FLOW_ASK and FLOW_DROP (R90, R91) -/

theorem parseChange_flowAsk {a b : Byte} (h : within 100 2000 (be16 a b) = true) :
    parseChange .flowAsk [a, b] = some (.flowAsk (be16 a b)) := if_pos h

theorem parseChange_flowAsk_cases (p : List Byte) :
    parseChange .flowAsk p = none ∨
      ∃ a b : Byte, p = [a, b] ∧ within 100 2000 (be16 a b) = true ∧
        parseChange .flowAsk p = some (.flowAsk (be16 a b)) := by
  unfold parseChange
  dsimp only
  split
  · split
    · next a b h => exact Or.inr ⟨a, b, rfl, h, rfl⟩
    · exact Or.inl rfl
  · exact Or.inl rfl

/-- A FLOW_ASK of a station that is no member, or with a payload that fails, leaves the replica (R90). -/
theorem judgeFrame_flowAsk_void {c : Ctx} {s : Nat} {p : List Byte} {r : Replica}
    (h : parseChange .flowAsk p = none ∨ memberOf s r = false) : (judgeFrame c s .flowAsk p r).rep = r := by
  rcases parseChange_flowAsk_cases p with hp | ⟨a, b, _, _, hp⟩
  · exact judgeFrame_unparsed hp r
  · have hm : memberOf s r = false := h.resolve_left (by simp [hp])
    rw [judgeFrame_of_parse hp]
    exact congrArg Judged.rep (if_neg (by simp [hm]))

theorem Ledger.entryOf_eq_none_iff {x : Nat} {l : Ledger} : l.entryOf x = none ↔ ∀ e ∈ l.entries, e.station ≠ x := by
  simp [Ledger.entryOf]

/-- A station's FLOW_DROP removes its entry; with none there it is void (R91). -/
theorem judgeFlowDrop_rep (s : Nat) (r : Replica) :
    (judgeFlowDrop s r).rep =
      if (r.ledger.entryOf s).isSome then { r with ledger := (r.ledger.without s).topUp } else r := by
  unfold judgeFlowDrop
  cases r.ledger.entryOf s <;> rfl

theorem parseChange_flowDrop (p : List Byte) :
    parseChange .flowDrop p = if p = [] then some .flowDrop else none := by
  cases p <;> rfl

/-- Settles O26: each frame's payload step, and then its judgment: `judgeFlowAsk` for a member, `judgeFlowDrop_rep` for a
station with an entry. -/
theorem flowFramesMoveTheSendersEntry : Obligations.FlowFramesMoveTheSendersEntry := by
  intro sender g p s ht r others ask drop
  have asked : ∀ r', (judgeFrame (Ctx.whole g) sender.toNat .flowAsk p r).rep = r' → s.becomes g r' ask :=
    fun r' e => e ▸ frameIn_becomes ht rfl
  have dropped : ∀ r', (judgeFrame (Ctx.whole g) sender.toNat .flowDrop p r).rep = r' → s.becomes g r' drop :=
    fun r' e => e ▸ frameIn_becomes ht rfl
  refine ⟨fun a b hp hv hm => asked _ ?_, fun hm => asked _ (judgeFrame_flowAsk_void (Or.inr hm)),
    fun hv => asked _ (judgeFrame_flowAsk_void (Or.inl ?_)), fun hp hentry => dropped _ ?_, fun hvoid => dropped _ ?_⟩
  · rw [hp, judgeFrame_of_parse (parseChange_flowAsk hv)]
    exact congrArg Judged.rep (if_pos hm)
  · rcases parseChange_flowAsk_cases p with h | ⟨a, b, hp, hin, _⟩
    · exact h
    · exact absurd hin (by simp [hv a b hp])
  · have hsome : (r.ledger.entryOf sender.toNat).isSome = true := by
      rw [← Option.ne_none_iff_isSome, ne_eq, Ledger.entryOf_eq_none_iff]
      simpa using hentry
    rw [judgeFrame_of_parse ((parseChange_flowDrop p).trans (if_pos hp))]
    exact (judgeFlowDrop_rep _ r).trans (if_pos hsome)
  · by_cases hp : p = []
    · have hnone := Ledger.entryOf_eq_none_iff.mpr (hvoid.resolve_left (not_not_intro hp))
      rw [judgeFrame_of_parse ((parseChange_flowDrop p).trans (if_pos hp))]
      exact (judgeFlowDrop_rep _ r).trans (if_neg (by simp [hnone]))
    · exact judgeFrame_unparsed ((parseChange_flowDrop p).trans (if_neg hp)) r

end Sys2Proof.Machine


/-! The plant unit's BUDGETs while other blocks offer and withdraw theirs (R14, R15): no one else's move adds one, takes one
away, or lets one wait again. -/

namespace Sys2Proof.Machine

/-! ## Which frames the queue's operations keep (R14, R15) -/

/-- A frame that is not the host port's is held after an offer when it was held before it, or is the one offered. -/
theorem Line.mem_frames_offer_iff {p : Producer} {f : Frame} {l : Line} {w : Waiter} (hw : w.producer ≠ .host) :
    w ∈ (l.offer p f).frames ↔ w ∈ l.frames ∨ w = { producer := p, frame := f } := by
  refine ⟨Line.mem_frames_offer, fun h => ?_⟩
  rcases Line.offer_cases p f l with ⟨_, e⟩ | ⟨_, hp, e⟩ | ⟨_, _, _, e⟩ | ⟨_, _, _, e⟩ <;> rw [e]
  · rw [Line.mem_frames] at h ⊢
    have hq := fun x : OutEntry => (insertEntry_perm
      { frame := f, producer := p, order := l.nextOrder, inEmission := false, again := false } l.queue).mem_iff (a := x)
    rcases h with (⟨x, hx, hxw⟩ | h) | rfl
    · exact Or.inl ⟨x, (hq x).mpr (List.mem_cons_of_mem _ hx), hxw⟩
    · exact Or.inr h
    · exact Or.inl ⟨_, (hq _).mpr List.mem_cons_self, rfl⟩
  · exact h.resolve_right (fun e => hw (by rw [e, hp]))
  · simp only [Line.mem_frames, List.mem_append, List.mem_singleton] at h ⊢
    rcases h with (h | h | h) | h <;> simp [h]
  · simp only [Line.mem_frames, List.mem_append, List.mem_singleton] at h ⊢
    rcases h with (h | h | h) | h <;> simp [h]

theorem mem_erase_or_eq_iff {w v : Waiter} {l : List Waiter} (hv : v ∈ l) : w ∈ l.erase v ∨ w = v ↔ w ∈ l := by
  by_cases h : w = v
  · subst h
    exact ⟨fun _ => hv, fun _ => Or.inr rfl⟩
  · rw [List.mem_erase_of_ne h]
    exact or_iff_left h

/-- The backlog's frames that are promoted stay held. -/
theorem Line.mem_frames_promote_iff {w : Waiter} (hw : w.producer ≠ .host) (p : Producer) :
    ∀ (n : Nat) (l : Line), w ∈ (Line.promote p n l).frames ↔ w ∈ l.frames := by
  intro n
  induction n with
  | zero => exact fun _ => Iff.rfl
  | succ n ih =>
    intro l
    unfold Line.promote
    split
    · exact Iff.rfl
    · split
      · exact Iff.rfl
      · next v hv =>
        have hp : { producer := p, frame := v.frame } = v :=
          congrArg (Waiter.mk · v.frame) (show v.producer = p by simpa using List.find?_some hv).symm
        rw [ih, Line.mem_frames_offer_iff hw, hp]
        simp only [Line.mem_frames, ← mem_erase_or_eq_iff (w := w) (List.mem_of_find?_eq_some hv), or_assoc]

/-- The wait list's frames that are given a slot stay held. -/
theorem Line.mem_frames_refill_iff {w : Waiter} (hw : w.producer ≠ .host) :
    ∀ (n : Nat) (l : Line), w ∈ (Line.refill n l).frames ↔ w ∈ l.frames := by
  intro n
  induction n with
  | zero => exact fun _ => Iff.rfl
  | succ n ih =>
    intro l
    unfold Line.refill
    split
    · next hlen =>
      split
      · exact Iff.rfl
      · next v hv =>
        have henqueue : ({ l with waitList := l.waitList.erase v }.enqueue v.producer v.frame) =
            { l with waitList := l.waitList.erase v }.offer v.producer v.frame := (if_pos hlen).symm
        rw [ih, Line.mem_frames_promote_iff hw, henqueue, Line.mem_frames_offer_iff hw]
        simp only [Line.mem_frames, ← mem_erase_or_eq_iff (w := w) (bestWaiter_mem hv), or_assoc,
          or_comm (a := w ∈ l.backlog) (b := w = v)]
    · exact Iff.rfl

/-- A frame that a withdrawal does not pick is held after it as before. -/
theorem Line.mem_frames_withdraw_iff {p : Producer} {sel : Frame → Bool} {again : Bool} {l : Line} {w : Waiter}
    (hw : w.producer ≠ .host) (hsel : w.isOf p sel = false) : w ∈ (l.withdraw p sel again).frames ↔ w ∈ l.frames := by
  have hentry : ∀ e : OutEntry, { producer := e.producer, frame := e.frame } = w → e.isOf p sel = false := by
    rintro e rfl
    exact hsel
  rw [Line.withdraw_eq, Line.mem_frames_promote_iff hw, Line.settle, Line.mem_frames_refill_iff hw, Line.mem_frames,
    Line.mem_frames]
  have hqueue : (∃ e ∈ (l.struck p sel again).queue, ({ producer := e.producer, frame := e.frame } : Waiter) = w) ↔
      ∃ e ∈ l.queue, ({ producer := e.producer, frame := e.frame } : Waiter) = w := by
    simp only [Line.struck, List.mem_map, List.mem_filter]
    constructor
    · rintro ⟨e, ⟨x, ⟨hx, _⟩, rfl⟩, he⟩
      refine ⟨x, hx, ?_⟩
      rw [← he]
      split <;> rfl
    · rintro ⟨x, hx, he⟩
      exact ⟨x, ⟨x, ⟨hx, by simp [hentry x he]⟩, by simp [hentry x he]⟩, he⟩
  rw [hqueue]
  simp [Line.struck, List.mem_filter, hsel]

theorem Line.Clear.withdraw {p q : Producer} {sel t : Frame → Bool} {l : Line} (h : l.Clear p sel) (again : Bool) :
    (l.withdraw q t again).Clear p sel := by
  rw [Line.withdraw_eq]
  refine Line.Clear.promote q _ (Line.Clear.refill _ ⟨fun e he hs => ?_, fun w hw => ?_, fun w hw => ?_⟩)
  · simp only [Line.struck, List.mem_map, List.mem_filter] at he
    obtain ⟨x, ⟨hx, _⟩, rfl⟩ := he
    have hsx : x.isOf p sel = true := by
      rw [← hs]
      split <;> rfl
    rw [← h.queue x hx hsx]
    split <;> rfl
  · exact h.waitList w (List.mem_of_mem_filter hw)
  · exact h.backlog w (List.mem_of_mem_filter hw)

/-! ## The plant unit's BUDGETs -/

/-- From the line `a` to the line `c`, the same BUDGETs of the plant unit are held, and none waits that did not. -/
structure Line.SameBudgets (a c : Line) : Prop where
  clear : a.Clear .plant isBudget → c.Clear .plant isBudget
  held : ∀ w : Waiter, w.isOf .plant isBudget = true → (w ∈ c.frames ↔ w ∈ a.frames)

theorem Waiter.isOf_plant_producer {w : Waiter} {sel : Frame → Bool} (h : w.isOf .plant sel = true) :
    w.producer = .plant := by
  simp only [Waiter.isOf, Bool.and_eq_true, beq_iff_eq] at h
  exact h.1

namespace Line.SameBudgets

variable {a c e : Line}

theorem refl (a : Line) : Line.SameBudgets a a := ⟨id, fun _ _ => Iff.rfl⟩

theorem trans (h : Line.SameBudgets a c) (k : Line.SameBudgets c e) : Line.SameBudgets a e :=
  ⟨fun x => k.clear (h.clear x), fun w hw => (k.held w hw).trans (h.held w hw)⟩

/-- A change of the line that leaves the queue, the wait list and the backlogs. -/
theorem of_frames (h1 : c.queue = a.queue) (h2 : c.waitList = a.waitList) (h3 : c.backlog = a.backlog) :
    Line.SameBudgets a c := by
  refine ⟨fun h => ⟨h1 ▸ h.queue, h2 ▸ h.waitList, h3 ▸ h.backlog⟩, fun w _ => ?_⟩
  rw [Line.mem_frames, Line.mem_frames, h1, h2, h3]

theorem line_offer (h : Line.SameBudgets a c) {p : Producer} (hp : p ≠ .plant) (f : Frame) :
    Line.SameBudgets a (c.offer p f) := by
  have hoffered : Waiter.isOf .plant isBudget { producer := p, frame := f } = false := by simp [Waiter.isOf, hp]
  refine h.trans ⟨fun x => x.offer hoffered, fun w hw => ?_⟩
  have hplant := Waiter.isOf_plant_producer hw
  rw [Line.mem_frames_offer_iff (by simp [hplant])]
  refine or_iff_left (fun heq => hp ?_)
  rw [← hplant, heq]

theorem line_withdraw (h : Line.SameBudgets a c) {p : Producer} (hp : p ≠ .plant) (sel : Frame → Bool) (again : Bool) :
    Line.SameBudgets a (c.withdraw p sel again) := by
  refine h.trans ⟨fun x => x.withdraw again, fun w hw => ?_⟩
  have hplant := Waiter.isOf_plant_producer hw
  exact Line.mem_frames_withdraw_iff (by simp [hplant]) (by simp [Waiter.isOf, hplant, Ne.symm hp])

/-! ## The moves of the other blocks (R28) -/

variable {b : Blocks}

theorem offer (h : Line.SameBudgets a b.line) {p : Producer} (hp : p ≠ .plant) (f : Frame) :
    Line.SameBudgets a (b.offer p f).line := by
  rw [Blocks.offer_line]
  split
  · exact h.line_offer hp f
  · exact h

theorem withdraw (h : Line.SameBudgets a b.line) {p : Producer} (hp : p ≠ .plant) (sel : Frame → Bool) :
    Line.SameBudgets a (b.withdraw p sel).line := h.line_withdraw hp sel false

theorem post (h : Line.SameBudgets a b.line) (n : Notice) : Line.SameBudgets a (b.post n).line := by
  rw [Blocks.post_line]
  exact h

theorem setStream (h : Line.SameBudgets a b.line) (x : Option Stream) : Line.SameBudgets a (b.setStream x).line := h

theorem onCost (h : Line.SameBudgets a b.line) (f : CostUnit → CostUnit) : Line.SameBudgets a (b.onCost f).line := h

/-- A run of moves. -/
theorem foldl {β : Type} {f : Blocks → β → Blocks}
    (hf : ∀ (b : Blocks) (x : β), Line.SameBudgets a b.line → Line.SameBudgets a (f b x).line) (l : List β) :
    ∀ {b : Blocks}, Line.SameBudgets a b.line → Line.SameBudgets a (l.foldl f b).line := by
  induction l with
  | nil => exact fun h => h
  | cons x rest ih => exact fun h => ih (hf _ x h)

theorem offerSnap (h : Line.SameBudgets a b.line) (sh : Shop) : Line.SameBudgets a (b.offerSnap sh).line := by
  unfold Blocks.offerSnap
  split
  · exact h
  · exact (h.setStream _).offer (by decide) _

/-- A SNAP that is withdrawn and offered afresh (R34, R36). -/
theorem streamAfter (h : Line.SameBudgets a b.line) (members ledger : Bool) (sh : Shop) :
    Line.SameBudgets a (b.streamAfter members ledger sh).line := by
  have hw : Line.SameBudgets a (b.withdraw .table isSnap).line := h.withdraw (by decide) _
  unfold Blocks.streamAfter Blocks.restartStream Blocks.refreshStream Blocks.startStream
  repeat' split
  · exact h
  · exact h
  · exact (hw.setStream _).offerSnap sh
  · exact hw.offerSnap sh
  · exact h

theorem streamNews (h : Line.SameBudgets a b.line) (x : Applied) (sh : Shop) :
    Line.SameBudgets a (b.streamNews x sh).line := by
  unfold Blocks.streamNews
  split <;> exact h.streamAfter _ _ sh

theorem reportChecks (h : Line.SameBudgets a b.line) (sh : Shop) : Line.SameBudgets a (b.reportChecks sh).line := by
  unfold Blocks.reportChecks
  split
  · refine foldl (fun x p k => ?_) _ h
    split
    · exact (k.onCost _).offer (by decide) _
    · exact k
  · exact h

theorem withdrawZero (h : Line.SameBudgets a b.line) (job : Nat) : Line.SameBudgets a (b.withdrawZero job).line := by
  have hw : Line.SameBudgets a (b.withdraw .cost (isZeroReport job)).line := h.withdraw (by decide) _
  unfold Blocks.withdrawZero
  dsimp only
  repeat' split
  · exact hw
  · exact hw
  · exact h

/-- The cost unit's part in a change frame offers and withdraws COST_REPORTs alone (R177 to R179). -/
theorem costAfter (h : Line.SameBudgets a b.line) (before : Replica) (sh : Shop) :
    Line.SameBudgets a (b.costAfter before sh).line := by
  have hdrop : ∀ c : Blocks, Line.SameBudgets a c.line → Line.SameBudgets a (c.dropZeros before sh.rep).line := by
    refine fun c k => foldl (fun x job k => ?_) _ k
    split
    · exact k.withdrawZero job
    · exact k
  have htally : ∀ c : Blocks, Line.SameBudgets a c.line → Line.SameBudgets a (c.postTallies before sh.rep).line := by
    intro c k
    unfold Blocks.postTallies
    split
    · exact foldl (fun _ _ k => k.post _) _ k
    · exact k
  exact htally _ ((hdrop (b.onCost _) h).reportChecks sh)

theorem askCheck (h : Line.SameBudgets a b.line) (sh : Shop) : Line.SameBudgets a (b.askCheck sh).line := by
  unfold Blocks.askCheck
  split
  · exact h.offer (by decide) _
  · exact h

/-- A PLANT station's planner claims nothing, and reclaims at most the slab of a plan (R49, R139). -/
theorem plannerEnters (h : Line.SameBudgets a b.line) (hrole : b.pres.role = .plant) (sh : Shop) :
    Line.SameBudgets a (b.plannerEnters sh).line := by
  have hreclaim : ∀ c : Blocks, Line.SameBudgets a c.line → Line.SameBudgets a c.offerReclaim.line := by
    intro c k
    unfold Blocks.offerReclaim
    split
    · exact k
    · exact k.offer (by decide) _
  unfold Blocks.plannerEnters
  repeat' split
  · unfold Blocks.search
    rw [if_neg (by simp [Blocks.plans, hrole])]
    exact h
  · exact h
  · exact hreclaim _ h
  · exact h

end Line.SameBudgets

/-! ## The BUDGET held (R113) -/

theorem Line.heldBudget_eq_none_iff {l : Line} :
    l.heldBudget = none ↔ ∀ w ∈ l.frames, w.isOf .plant isBudget = false := by
  refine ⟨fun h w hw => ?_, Line.heldBudget_none⟩
  have hnone := List.find?_eq_none.mp (Option.map_eq_none_iff.mp h) w hw
  exact Bool.not_eq_true _ ▸ hnone

/-- A frame is the one BUDGET of the plant unit that the line holds. -/
structure Line.HoldsBudget (f : Frame) (l : Line) : Prop where
  held : ∃ w ∈ l.frames, w.isOf .plant isBudget = true
  one : ∀ w ∈ l.frames, w.isOf .plant isBudget = true → w.frame = f

theorem Line.HoldsBudget.heldBudget {f : Frame} {l : Line} (h : l.HoldsBudget f) :
    l.heldBudget = some (budgetValue f) := Line.heldBudget_some h.held h.one

theorem Line.offer_holdsBudget {f : Frame} {l : Line} (h : l.heldBudget = none) (hf : isBudget f = true) :
    (l.offer .plant f).HoldsBudget f := by
  refine ⟨Line.exists_frame_of_heldWaiting (Line.offer_held .plant f l (by decide) isBudget hf), fun w hw hs => ?_⟩
  rcases Line.mem_frames_offer hw with hw | rfl
  · rw [Line.heldBudget_eq_none_iff.mp h w hw] at hs
    exact absurd hs Bool.false_ne_true
  · rfl

theorem Line.SameBudgets.heldBudget_none {a c : Line} (h : Line.SameBudgets a c) (ha : a.heldBudget = none) :
    c.heldBudget = none := by
  refine Line.heldBudget_none (fun w hw => ?_)
  rw [← Bool.not_eq_true]
  intro hs
  rw [Line.heldBudget_eq_none_iff.mp ha w ((h.held w hs).mp hw)] at hs
  exact Bool.false_ne_true hs

theorem Line.SameBudgets.holdsBudget {f : Frame} {a c : Line} (h : Line.SameBudgets a c) (ha : a.HoldsBudget f) :
    c.HoldsBudget f := by
  obtain ⟨w, hw, hs⟩ := ha.held
  exact ⟨⟨w, (h.held w hs).mpr hw, hs⟩, fun v hv hvs => ha.one v ((h.held v hvs).mp hv) hvs⟩

theorem Line.SameBudgets.heldWaiting {a c : Line} (h : Line.SameBudgets a c)
    (ha : a.heldWaiting .plant isBudget = false) : c.heldWaiting .plant isBudget = false :=
  (Line.clear_iff _ _ _).mpr (h.clear ((Line.clear_iff _ _ _).mp ha))

end Sys2Proof.Machine


/-! The plant unit's news (R96 to R98, R113, R114): the report of the ledger, the entry into standby, the plant's absence. -/

namespace Sys2Proof.Machine

/-! ## A comparison that offers nothing (R113, R114) -/

@[simp] theorem Blocks.withdrawBudget_plant (b : Blocks) : b.withdrawBudget.plant = b.plant := rfl

@[simp] theorem Blocks.withdrawBudget_host (b : Blocks) : b.withdrawBudget.host = b.host := rfl

/-- The plant unit publishes nothing: it stands by, or has no value to publish (R97, R112). -/
def PlantUnit.silent (p : PlantUnit) : Prop := p.standby = true ∨ p.published = none

/-- A comparison of a silent plant unit withdraws the BUDGET held, or does nothing. -/
theorem Blocks.plantCompare_silent {b : Blocks} (h : b.plant.silent) (sh : Shop) :
    b.plantCompare sh = b ∨ b.plantCompare sh = b.withdrawBudget := by
  unfold Blocks.plantCompare Blocks.comparePublished
  split
  · split
    · exact Or.inl rfl
    · next v hv =>
      have hst : b.plant.standby = true := h.resolve_right (by simp [hv])
      have hmay : ∀ c : Blocks, c.plant = b.plant → c.mayPublish sh = false := fun c hc => by
        simp [Blocks.mayPublish, hc, hst]
      split
      · split
        · exact Or.inl rfl
        · refine Or.inr (if_neg ?_)
          simp [hmay b.withdrawBudget rfl]
      · exact Or.inl (if_pos (by simp [hmay b rfl]))
  · exact Or.inl rfl

theorem Blocks.plantCompare_silent_plant {b : Blocks} (h : b.plant.silent) (sh : Shop) :
    (b.plantCompare sh).plant = b.plant := by
  rcases Blocks.plantCompare_silent h sh with e | e <;> rw [e]
  rfl

theorem Blocks.plantCompare_silent_host {b : Blocks} (h : b.plant.silent) (sh : Shop) :
    (b.plantCompare sh).host = b.host := by
  rcases Blocks.plantCompare_silent h sh with e | e <;> rw [e]
  rfl

theorem Blocks.plantCompare_silent_heldWaiting {b : Blocks} (h : b.plant.silent) (sh : Shop)
    (hw : b.line.heldWaiting .plant isBudget = false) :
    (b.plantCompare sh).line.heldWaiting .plant isBudget = false := by
  rcases Blocks.plantCompare_silent h sh with e | e <;> rw [e]
  · exact hw
  · exact Line.withdraw_clear _ _ _ _

/-- A value that was sent needs no offer: the comparison leaves the plant unit, or sends it again (R114). -/
theorem Blocks.plantCompare_sent_plant {b : Blocks} (h : b.plant.published = some b.plant.lastSent) (sh : Shop) :
    (b.plantCompare sh).plant = b.plant := by
  have hoffered : ∀ c : Blocks, c.plant = b.plant → (c.offerBudget b.plant.lastSent).plant = b.plant := fun c hc => by
    rw [Blocks.offerBudget_plant, hc]
  unfold Blocks.plantCompare Blocks.comparePublished
  rw [h]
  dsimp only
  split
  · split
    · repeat' split
      · rfl
      · exact hoffered _ rfl
      · rfl
    · rw [if_pos (by simp)]
  · rfl

/-! ## The report of the ledger (R96) -/

theorem Blocks.ledgerReport_silent_plant {b : Blocks} (hp : b.plants = true) (h : b.plant.silent) (sh : Shop) :
    (b.ledgerReport sh).plant = { b.plant with lastSent := sh.rep.ledger.budget } := by
  unfold Blocks.ledgerReport
  rw [if_pos hp]
  exact Blocks.plantCompare_silent_plant (b := b.onPlant (fun p => { p with lastSent := sh.rep.ledger.budget })) h sh

/-! ## Standby (R97) -/

/-- A plant unit that enters standby: nothing of it waits any more, and PLANT_CONFLICT is posted behind what stood. -/
structure Blocks.StoodBy (sh : Shop) (b c : Blocks) : Prop where
  plant : c.plant.standby = true
  heldWaiting : c.line.heldWaiting .plant isBudget = false
  notices : b.host.notices.length < 16 →
    c.host.notices = b.host.notices ++ [.plantConflict (optStation sh.rep.ledger.plant) sh.gen]

theorem Blocks.mem_ne_inert_of_plants {b : Blocks} (h : b.plants = true) : b.pres.mem ≠ .inert := by
  simp only [Blocks.plants, Bool.and_eq_true, bne_iff_ne] at h
  exact h.2

theorem Blocks.plants_of {b : Blocks} (hr : b.pres.role = .plant) (hm : b.pres.mem ≠ .inert) : b.plants = true := by
  simp [Blocks.plants, hr, hm]

theorem Blocks.enterStandby_plant {b : Blocks} (hp : b.plants = true) (sh : Shop) :
    (b.enterStandby sh).plant = { b.plant with standby := true } := by
  unfold Blocks.enterStandby
  split
  · exact Blocks.post_plant _ _
  · next h =>
    have hst : b.plant.standby = true := by simpa [hp] using h
    rw [← hst]

theorem Blocks.enterStandby_stoodBy {b : Blocks} (hp : b.plants = true) (hst : b.plant.standby = false) (sh : Shop) :
    b.StoodBy sh (b.enterStandby sh) := by
  have hplant := Blocks.enterStandby_plant hp sh
  have henter : b.enterStandby sh =
      ((b.onPlant (fun p => { p with standby := true })).withdraw .plant isBudget).post
        (.plantConflict (optStation sh.rep.ledger.plant) sh.gen) := if_pos (by simp [hp, hst])
  refine ⟨congrArg PlantUnit.standby hplant, ?_, fun hroom => ?_⟩
  · rw [henter, Blocks.post_line]
    exact Line.withdraw_clear _ _ _ _
  · rw [henter]
    exact Blocks.post_notices (b := (b.onPlant _).withdraw .plant isBudget) (Blocks.mem_ne_inert_of_plants hp) hroom _

/-- The report of the ledger on an event that also enters standby (R96, R97, log 55). -/
theorem Blocks.reportIntoStandby_plant {b : Blocks} (hp : b.plants = true) (sh : Shop) :
    (b.reportIntoStandby sh).plant = { b.plant with lastSent := sh.rep.ledger.budget, standby := true } := by
  have hentered := Blocks.enterStandby_plant (b := b.onPlant (fun p => { p with lastSent := sh.rep.ledger.budget })) hp sh
  unfold Blocks.reportIntoStandby
  rw [if_pos hp, Blocks.plantCompare_silent_plant (Or.inl (congrArg PlantUnit.standby hentered))]
  exact hentered

theorem Blocks.reportIntoStandby_stoodBy {b : Blocks} (hp : b.plants = true) (hst : b.plant.standby = false) (sh : Shop) :
    b.StoodBy sh (b.reportIntoStandby sh) := by
  have h := Blocks.enterStandby_stoodBy (b := b.onPlant (fun p => { p with lastSent := sh.rep.ledger.budget })) hp hst sh
  have hplant := Blocks.reportIntoStandby_plant hp sh
  refine ⟨congrArg PlantUnit.standby hplant, ?_, fun hroom => ?_⟩
  · unfold Blocks.reportIntoStandby
    rw [if_pos hp]
    exact Blocks.plantCompare_silent_heldWaiting (Or.inl h.plant) sh h.heldWaiting
  · unfold Blocks.reportIntoStandby
    rw [if_pos hp, Blocks.plantCompare_silent_host (Or.inl h.plant)]
    exact h.notices hroom

/-! ## The plant's absence (R96, R98) -/

/-- The plant unit out of standby, its last sent value the ledger's budget. -/
def Blocks.absenceTold (sh : Shop) (b : Blocks) : Blocks :=
  b.onPlant (fun p => { p with standby := false, lastSent := sh.rep.ledger.budget })

theorem Blocks.absenceTold_plant (sh : Shop) (b : Blocks) :
    (b.absenceTold sh).plant = { b.plant with standby := false, lastSent := sh.rep.ledger.budget } := rfl

theorem Blocks.leaveStandby_ledgerReport {b : Blocks} (hp : b.plants = true) (sh : Shop) :
    b.leaveStandby.ledgerReport sh = (b.absenceTold sh).plantCompare sh := by
  have hleave : b.leaveStandby = b.onPlant (fun p => { p with standby := false }) := if_pos hp
  rw [hleave]
  exact if_pos hp

theorem Blocks.plantAbsent_eq {b : Blocks} {before : Replica} {sh : Shop} (hp : b.plants = true)
    (hb : before.ledger.plant ≠ none) (ha : sh.rep.ledger.plant = none) :
    b.plantAbsent before sh = (b.absenceTold sh).plantCompare sh := by
  rw [← Blocks.leaveStandby_ledgerReport hp]
  exact if_pos (by simp [Option.isSome_iff_ne_none, hb, ha])

theorem Blocks.plantAbsent_of_present {before : Replica} {sh : Shop} (h : sh.rep.ledger.plant ≠ none) (b : Blocks) :
    b.plantAbsent before sh = b := by
  obtain ⟨z, hz⟩ := Option.ne_none_iff_exists'.mp h
  exact if_neg (by simp [hz])

/-- With no published value the plant unit leaves standby, and its last sent value is the ledger's budget. -/
theorem Blocks.plantAbsent_unpublished {b : Blocks} {before : Replica} {sh : Shop} (hp : b.plants = true)
    (hb : before.ledger.plant ≠ none) (ha : sh.rep.ledger.plant = none) (hv : b.plant.published = none) :
    (b.plantAbsent before sh).plant = { b.plant with standby := false, lastSent := sh.rep.ledger.budget } := by
  rw [Blocks.plantAbsent_eq hp hb ha]
  exact Blocks.plantCompare_silent_plant (b := b.absenceTold sh) (Or.inr hv) sh

/-- A plant unit that may publish its value. -/
structure Blocks.Ready (v : Nat) (sh : Shop) (b : Blocks) : Prop where
  plants : b.plants = true
  mem : b.pres.mem = .member
  current : sh.state = .current
  published : b.plant.published = some v
  pos : 0 < v
  band : b.plant.band ≠ none
  noHalt : b.plant.band ≠ some .halt
  unheld : b.line.heldBudget = none
  spacing : b.plant.spacingT = none

/-- A ready plant unit with nothing sent offers its value, and the spacing timer starts (R113). -/
theorem Blocks.Ready.compare {v : Nat} {sh : Shop} {b : Blocks} (h : b.Ready v sh) (hst : b.plant.standby = false)
    (hs : b.plant.lastSent = 0) : b.plantCompare sh = (b.offerBudget v).startSpacing := by
  have hband : b.plant.band.isSome = true := Option.isSome_iff_ne_none.mpr h.band
  have hmay : b.mayPublish sh = true := by
    simp [Blocks.mayPublish, live, Blocks.isMember, Shop.current, h.mem, h.current, hst, hband, h.noHalt]
  have hpos := h.pos
  unfold Blocks.plantCompare Blocks.comparePublished
  rw [if_pos h.plants, h.published, h.unheld]
  dsimp only
  rw [if_neg (by simp [hmay, hs]; omega), if_pos (by simp [h.spacing])]

/-- At the plant's absence a ready plant unit leaves standby and offers its value from there (R98, R113). -/
theorem Blocks.Ready.plantAbsent {v : Nat} {before : Replica} {sh : Shop} {b : Blocks} (h : b.Ready v sh)
    (hb : before.ledger.plant ≠ none) (ha : sh.rep.ledger.plant = none) (h0 : sh.rep.ledger.budget = 0) :
    (b.plantAbsent before sh).plant =
        { b.plant with standby := false, lastSent := v, spacingT := some (b.now + 500) } ∧
      (b.plantAbsent before sh).line.HoldsBudget (mkFrame .budget (bytes2 v)) := by
  have htold : (b.absenceTold sh).Ready v sh := { h with }
  have hoffers : (b.absenceTold sh).pres.mem.offers = true := by
    rw [show (b.absenceTold sh).pres.mem = .member from h.mem]
    rfl
  rw [Blocks.plantAbsent_eq h.plants hb ha, htold.compare rfl h0]
  refine ⟨?_, ?_⟩
  · show { ((b.absenceTold sh).offerBudget v).plant with
      spacingT := some (((b.absenceTold sh).offerBudget v).now + 500) } = _
    rw [Blocks.offerBudget_plant, Blocks.offerBudget, Blocks.offer_now]
    rfl
  · show ((b.absenceTold sh).offerBudget v).line.HoldsBudget _
    rw [Blocks.offerBudget_line, if_pos hoffers]
    exact Line.offer_holdsBudget h.unheld rfl

/-! ## The outcome of the own BUDGET, and a replica that becomes CURRENT (R97, R98, R114) -/

/-- Its own BUDGET taken makes its value the last sent one, where no other is published (R114, log 50). -/
theorem Blocks.budgetOutcome_taken_plant {b : Blocks} {v : Nat} (hp : b.plants = true)
    (hv : b.plant.published = none ∨ b.plant.published = some v) (sh : Shop) :
    (b.budgetOutcome v none sh).plant = { b.plant with lastSent := v } := by
  have houtcome : b.budgetOutcome v none sh = (b.onPlant (fun p => { p with lastSent := v })).plantCompare sh := if_pos hp
  rw [houtcome]
  rcases hv with hv | hv
  · exact Blocks.plantCompare_silent_plant (b := b.onPlant (fun p => { p with lastSent := v })) (Or.inr hv) sh
  · exact Blocks.plantCompare_sent_plant (b := b.onPlant (fun p => { p with lastSent := v })) hv sh

theorem Blocks.budgetOutcome_otherPlant {b : Blocks} (hp : b.plants = true) (v : Nat) (sh : Shop) :
    b.budgetOutcome v (some .otherPlant) sh = b.enterStandby sh := if_pos hp

theorem Blocks.budgetOutcome_notPlant {b : Blocks} (hp : b.plants = true) (v : Nat) (sh : Shop) :
    b.budgetOutcome v (some .notPlant) sh = b.ledgerReport sh := if_pos hp

theorem Shop.otherPlant_of {sh : Shop} {own z : Nat} (h : sh.rep.ledger.plant = some z) (hz : z ≠ own) :
    sh.otherPlant own = true := by
  simp [Shop.otherPlant, h, hz]

theorem Shop.otherPlant_absent {sh : Shop} (h : sh.rep.ledger.plant = none) (own : Nat) : sh.otherPlant own = false := by
  simp [Shop.otherPlant, h]

/-- A replica that becomes CURRENT with no plant ends standby, and reports its budget (R96, R98). -/
theorem Blocks.plantCurrent_absent {b : Blocks} {sh : Shop} (hp : b.plants = true) (h : sh.rep.ledger.plant = none)
    (hv : b.plant.published = none) :
    (b.plantCurrent sh).plant = { b.plant with standby := false, lastSent := sh.rep.ledger.budget } := by
  unfold Blocks.plantCurrent
  rw [h, Option.isNone_none, if_pos rfl, if_neg (by simp [Shop.otherPlant_absent h]),
    Blocks.leaveStandby_ledgerReport hp]
  exact Blocks.plantCompare_silent_plant (b := b.absenceTold sh) (Or.inr hv) sh

/-- A replica that becomes CURRENT at a LIVE station with another plant (R97, log 55). -/
theorem Blocks.plantCurrent_otherPlant {b : Blocks} {sh : Shop} {z : Nat} (hp : b.plants = true)
    (hlive : live sh b = true) (h : sh.rep.ledger.plant = some z) (hz : z ≠ b.pres.station) :
    (b.plantCurrent sh).plant = { b.plant with standby := true, lastSent := sh.rep.ledger.budget } := by
  unfold Blocks.plantCurrent
  rw [h, Option.isNone_some, if_neg Bool.false_ne_true, if_pos (by simp [hlive, Shop.otherPlant_of h hz])]
  exact Blocks.reportIntoStandby_plant hp sh

/-- A station that is LIVE with another plant stands by (R97). -/
theorem Blocks.plantLive_otherPlant {b : Blocks} {sh : Shop} {z : Nat} (hp : b.plants = true)
    (hlive : live sh b = true) (h : sh.rep.ledger.plant = some z) (hz : z ≠ b.pres.station) :
    b.plantLive sh = b.enterStandby sh := by
  unfold Blocks.plantLive
  rw [if_pos (by simp [hp, hlive]), if_pos (Shop.otherPlant_of h hz)]

/-- A station that is LIVE with no plant and nothing published keeps its plant unit as it is (R113). -/
theorem Blocks.plantLive_absent {b : Blocks} {sh : Shop} (h : sh.rep.ledger.plant = none) (hv : b.plant.published = none) :
    (b.plantLive sh).plant = b.plant := by
  unfold Blocks.plantLive
  split
  · rw [if_neg (by simp [Shop.otherPlant_absent h])]
    exact Blocks.plantCompare_silent_plant (Or.inr hv) sh
  · rfl

end Sys2Proof.Machine


/-! Standby and the last sent value (R54, R55, R96 to R98, R113, R114): a frame that tells the plant unit something, between
moves of the other blocks that leave it alone. -/

namespace Sys2Proof.Machine

/-! ## The plant unit between its news -/

/-- From the blocks `b` to the blocks `c`, the plant unit, its BUDGETs and what it reads of the station have stood, and the
notices are at most longer. -/
structure Blocks.PlantStands (b c : Blocks) : Prop where
  plant : c.plant = b.plant
  mem : c.pres.mem = b.pres.mem
  role : c.pres.role = b.pres.role
  station : c.pres.station = b.pres.station
  now : c.now = b.now
  notices : b.host.notices <+: c.host.notices
  budgets : Line.SameBudgets b.line c.line

namespace Blocks.PlantStands

variable {a b c : Blocks}

theorem refl (a : Blocks) : a.PlantStands a :=
  ⟨rfl, rfl, rfl, rfl, rfl, List.prefix_refl _, Line.SameBudgets.refl _⟩

theorem trans (h : a.PlantStands b) (k : b.PlantStands c) : a.PlantStands c :=
  ⟨k.plant.trans h.plant, k.mem.trans h.mem, k.role.trans h.role, k.station.trans h.station, k.now.trans h.now,
    h.notices.trans k.notices, h.budgets.trans k.budgets⟩

/-- The moves of one other block. -/
theorem of_moves (t : Tells b c) (m : Moves false b c) (h : Line.SameBudgets b.line c.line) : b.PlantStands c :=
  ⟨m.plant rfl, m.mem rfl, t.role, t.station, t.now, m.notices, h⟩

theorem streamNews (h : a.PlantStands b) (x : Applied) (sh : Shop) : a.PlantStands (b.streamNews x sh) :=
  h.trans (of_moves ((Tells.refl b).streamNews x sh) ((Moves.refl false b).streamNews x sh)
    ((Line.SameBudgets.refl _).streamNews x sh))

theorem costAfter (h : a.PlantStands b) (before : Replica) (sh : Shop) : a.PlantStands (b.costAfter before sh) :=
  h.trans (of_moves ((Tells.refl b).costAfter before sh) ((Moves.refl false b).costAfter before sh)
    ((Line.SameBudgets.refl _).costAfter before sh))

theorem withdraw (h : a.PlantStands b) {p : Producer} (hp : p ≠ .plant) (sel : Frame → Bool) :
    a.PlantStands (b.withdraw p sel) :=
  h.trans (of_moves ((Tells.refl b).withdraw p sel) ((Moves.refl false b).withdraw p sel)
    ((Line.SameBudgets.refl _).withdraw hp sel))

theorem askCheck (h : a.PlantStands b) (sh : Shop) : a.PlantStands (b.askCheck sh) :=
  h.trans (of_moves ((Tells.refl b).askCheck sh) ((Moves.refl false b).askCheck sh)
    ((Line.SameBudgets.refl _).askCheck sh))

theorem plannerEnters (h : a.PlantStands b) (hr : b.pres.role = .plant) (sh : Shop) :
    a.PlantStands (b.plannerEnters sh) :=
  h.trans (of_moves ((Tells.refl b).plannerEnters sh) ((Moves.refl false b).plannerEnters sh)
    ((Line.SameBudgets.refl _).plannerEnters hr sh))

/-- A change of the line that leaves the queue, the wait list and the backlogs. -/
theorem onLine {f : Line → Line} (h1 : (f b.line).queue = b.line.queue) (h2 : (f b.line).waitList = b.line.waitList)
    (h3 : (f b.line).backlog = b.line.backlog) : b.PlantStands (b.onLine f) :=
  { PlantStands.refl b with budgets := Line.SameBudgets.of_frames h1 h2 h3 }

theorem plants (h : b.PlantStands c) (hp : b.plants = true) : c.plants = true := by
  rw [← hp]
  simp [Blocks.plants, h.role, h.mem]

theorem heldWaiting (h : b.PlantStands c) (hb : b.line.heldWaiting .plant isBudget = false) :
    c.line.heldWaiting .plant isBudget = false := h.budgets.heldWaiting hb

theorem ready {v : Nat} {sh : Shop} (h : b.PlantStands c) (hb : b.Ready v sh) : c.Ready v sh :=
  { plants := h.plants hb.plants
    mem := h.mem.trans hb.mem
    current := hb.current
    published := (congrArg PlantUnit.published h.plant).trans hb.published
    pos := hb.pos
    band := h.plant ▸ hb.band
    noHalt := h.plant ▸ hb.noHalt
    unheld := h.budgets.heldBudget_none hb.unheld
    spacing := (congrArg PlantUnit.spacingT h.plant).trans hb.spacing }

end Blocks.PlantStands

/-- The plant unit is told `news` at a step, and the other blocks' moves before it and behind it leave it alone. -/
def State.PlantTold (s : State) (news : Blocks → Blocks) (t : State) : Prop :=
  ∃ b, s.dev.blk.PlantStands b ∧ b.host = s.dev.blk.host ∧ (news b).PlantStands t.dev.blk

theorem State.PlantTold.plant_eq {s t : State} {news : Blocks → Blocks} {u : PlantUnit} (h : s.PlantTold news t)
    (hnews : ∀ b, s.dev.blk.PlantStands b → (news b).plant = u) : t.dev.blk.plant = u := by
  obtain ⟨b, hb, _, ht⟩ := h
  exact ht.plant.trans (hnews b hb)

theorem State.PlantTold.of_costAfter {s t : State} {news : Blocks → Blocks} {b : Blocks} {before : Replica} {sh : Shop}
    (hb : s.dev.blk.PlantStands b) (hhost : b.host = s.dev.blk.host)
    (ht : t.dev.blk = (news b).costAfter before sh) : s.PlantTold news t :=
  ⟨b, hb, hhost, ht ▸ (Blocks.PlantStands.refl _).costAfter before sh⟩

/-- News by which the plant unit stands by (R97): PLANT_CONFLICT is the first notice of the step. -/
theorem State.PlantTold.stoodBy {s t : State} {news : Blocks → Blocks} {sh : Shop} (h : s.PlantTold news t)
    (hnews : ∀ b, s.dev.blk.PlantStands b → b.StoodBy sh (news b)) :
    t.dev.blk.plant.standby = true ∧ t.dev.blk.line.heldWaiting .plant isBudget = false ∧
      s.posts t (.plantConflict (optStation sh.rep.ledger.plant) sh.gen) := by
  obtain ⟨b, hb, hhost, ht⟩ := h
  have hstood := hnews b hb
  refine ⟨(congrArg PlantUnit.standby ht.plant).trans hstood.plant, ht.heldWaiting hstood.heldWaiting, fun hroom => ?_⟩
  rw [← hhost] at hroom ⊢
  exact hstood.notices hroom ▸ ht.notices

theorem Gives.mono {o : Host.Outcome State Fault Refusal} {p q : State → Prop} (h : Gives o p) (hpq : ∀ t, p t → q t) :
    Gives o q := by
  obtain ⟨t, ht, hp⟩ := h
  exact ⟨t, ht, hpq t hp⟩

/-! ## A change frame at a PLANT station (R26, R28) -/

/-- Who sent a frame: the station itself (log 2), or another. -/
def State.hearsOwn (s : State) (own : Bool) (sender : BitVec 4) (k : Kind) : Prop :=
  if own then s.ownFrame sender k else sender.toNat ≠ s.dev.blk.pres.station

/-- A frame off the line as the table unit takes it (R4). -/
def broadcast (k : Kind) (sender : BitVec 4) (g : Word16) (p : List Byte) : Taken :=
  { kind := k, sender := sender.toNat, target := 0, gen := g, payload := p }

/-- The shop state with a generation and a replica. -/
def Shop.moved (g : Word16) (r : Replica) (sh : Shop) : Shop := { sh with gen := g, rep := r }

/-- The station's own frame is taken by its kind alone, its head having been its sending (R12, log 2). -/
theorem Station.takeFrame_own {s : State} {k : Kind} {sender : BitVec 4} (ho : s.ownFrame sender k)
    (hr : s.dev.blk.host.rejoinPending = false) (g : Word16) (p : List Byte) :
    s.dev.takeFrame (broadcast k sender g p) =
      Station.takeKind true (broadcast k sender g p) { s.dev with blk := s.dev.blk.onLine Line.frameTaken } := by
  obtain ⟨hs, he, hd⟩ := ho
  have hown : s.dev.blk.isOwn (broadcast k sender g p) = true := by simp [Blocks.isOwn, broadcast, hs, hd]
  have hhead : s.dev.headTaken (broadcast k sender g p) = { s.dev with blk := s.dev.blk.onLine Line.frameTaken } := by
    unfold Station.headTaken
    rw [Station.completeFor_idle he]
    dsimp only
    rw [if_pos hown]
  rw [Station.takeFrame_unpended hr, hhead, Station.completeFor_idle he, hown]
  rfl

theorem State.headed_plantStands (s : State) (n : Nat) : s.dev.blk.PlantStands (s.headed n).dev.blk := by
  refine ⟨rfl, rfl, rfl, rfl, rfl, List.prefix_refl _, Line.SameBudgets.line_withdraw ?_ (by decide) _ _⟩
  exact Line.SameBudgets.of_frames rfl rfl rfl

/-- A frame is taken by its kind, behind a head that leaves the plant unit and the host port alone. -/
theorem frameIn_takesKind {own : Bool} {k : Kind} {sender : BitVec 4} {g : Word16} {p : List Byte} {s : State}
    (hh : s.hears sender p) (hk : k ≠ .snap) (hfrom : s.hearsOwn own sender k) :
    ∃ b, s.dev.blk.PlantStands b ∧ b.host = s.dev.blk.host ∧
      s.frameIn k sender 0 g p =
        .next { s with dev := Station.takeKind own (broadcast k sender g p) { s.dev with blk := b } } := by
  rw [frameIn_takes hh hk]
  cases own with
  | true =>
    exact ⟨_, Blocks.PlantStands.onLine rfl rfl rfl, rfl,
      congrArg (fun d => Host.Outcome.next { s with dev := d }) (Station.takeFrame_own hfrom hh.2.2.2 g p)⟩
  | false =>
    exact ⟨_, s.headed_plantStands sender.toNat, rfl,
      congrArg (fun d => Host.Outcome.next { s with dev := d })
        (Station.takeFrame_peer (f := broadcast k sender g p) hfrom hh.2.2.2)⟩

/-- The effective grant is a CUTTER's (R100). -/
theorem effGrant_of_plant {b : Blocks} (h : b.pres.role = .plant) (sh : Shop) : effGrant sh b = 0 :=
  if_neg (by simp [h])

theorem Blocks.grantReport_of_plant {b : Blocks} (h : b.pres.role = .plant) (sh : Shop) : b.grantReport 0 sh = b :=
  if_pos (effGrant_of_plant h sh)

theorem Blocks.QueueMoved.streamNews {a b : Blocks} (h : a.QueueMoved b) (x : Applied) (sh : Shop) :
    a.QueueMoved (b.streamNews x sh) := by
  have hafter : ∀ members ledger : Bool, a.QueueMoved (b.streamAfter members ledger sh) := by
    intro members ledger
    unfold Blocks.streamAfter Blocks.restartStream Blocks.startStream
    repeat' split
    · exact h
    · exact h
    · exact ((h.withdrawn .table isSnap false).onAsking _).offerSnap sh
    · exact h.refreshStream sh
  unfold Blocks.streamNews
  split <;> exact hafter _ _

/-- A change frame at a PLANT station whose replica is CURRENT: every block is told of its judgment, and of no grant. -/
theorem frameIn_tells {own : Bool} {k : Kind} {sender : BitVec 4} {g : Word16} {p : List Byte} {s : State}
    (hrole : s.dev.blk.pres.role = .plant) (ht : s.takes g sender p) (hk : k.isChange = true)
    (hfrom : s.hearsOwn own sender k) :
    ∃ b, s.dev.blk.PlantStands b ∧ b.host = s.dev.blk.host ∧
      Gives (s.frameIn k sender 0 g p) (fun t =>
        t.dev.blk = b.tellAll (.of own (broadcast k sender g p) s.dev.shop.rep) 0
          (s.dev.shop.moved g (judgeFrame (Ctx.whole g) sender.toNat k p s.dev.shop.rep).rep)) := by
  obtain ⟨hh, hcur, hg⟩ := ht
  have hsnap : k ≠ .snap := by
    rintro rfl
    exact Bool.false_ne_true hk
  obtain ⟨b, hb, hhost, heq⟩ := frameIn_takesKind (g := g) hh hsnap hfrom
  refine ⟨b, hb, hhost, _, heq, ?_⟩
  have happly : Station.takeKind own (broadcast k sender g p) { s.dev with blk := b } =
      Station.apply own (broadcast k sender g p) { s.dev with blk := b } := by
    rw [Station.takeKind_change hk]
    unfold Station.takeChange
    dsimp only
    rw [hcur]
    exact if_pos hg
  have hgrant : effGrant s.dev.shop b = 0 := effGrant_of_plant (hb.role.trans hrole) _
  dsimp only
  rw [happly]
  unfold Station.apply
  dsimp only
  rw [hgrant]
  rfl

/-! ## BUDGET (R89, R96, R97, R114) -/

/-- A BUDGET is news to the stream, to the plant unit and to the cost unit (R28). -/
theorem Blocks.tellAll_budget {a : Applied} {v : Nat} (hc : a.change = some (.budget v)) (hn : a.out.news = [])
    {b : Blocks} (hrole : b.pres.role = .plant) (sh : Shop) :
    b.tellAll a 0 sh = ((b.streamNews a sh).plantNews a sh).costAfter a.before sh := by
  have hstream : (b.streamNews a sh).pres.role = .plant := (((Tells.refl b).streamNews a sh).role).trans hrole
  have hreenters : a.reenters = false := by simp [Applied.reenters, hc]
  unfold Blocks.tellAll
  dsimp only
  rw [Blocks.grantReport_of_plant hstream]
  simp [Blocks.sawNews, Blocks.leaveNews, Blocks.presenceNews, Blocks.figuresNews, Blocks.plannerNews, Blocks.costNews,
    Blocks.hostNews, hc, hn, hreenters]

theorem judgeBudget_news (x v : Nat) (r : Replica) : (judgeBudget x v r).news = [] := by
  unfold judgeBudget
  repeat' split
  all_goals rfl

/-- A BUDGET whose payload passes tells the plant unit its judgment (R89). -/
theorem budget_told {own : Bool} {sender : BitVec 4} {g : Word16} {s : State} {x y : Byte}
    (hrole : s.dev.blk.pres.role = .plant) (ht : s.takes g sender [x, y]) (hv : be16 x y ≤ 8000)
    (hfrom : s.hearsOwn own sender .budget) :
    let j := judgeBudget sender.toNat (be16 x y) s.dev.shop.rep
    Gives (exec (.budget sender g [x, y]) s) (s.PlantTold (fun b =>
      if own then b.budgetOutcome (be16 x y) j.void (s.dev.shop.moved g j.rep)
      else if j.taken then b.rivalBudget s.dev.shop.rep (s.dev.shop.moved g j.rep) else b)) := by
  intro j
  have hparse := parseChange_budget hv
  have hjudge : judgeFrame (Ctx.whole g) sender.toNat .budget [x, y] s.dev.shop.rep = j := judgeFrame_of_parse hparse _
  obtain ⟨b, hb, hhost, htells⟩ := frameIn_tells (k := .budget) hrole ht rfl hfrom
  refine htells.mono (fun t heq => ?_)
  have hnews : (Applied.of own (broadcast .budget sender g [x, y]) s.dev.shop.rep).out.news = [] :=
    (congrArg Judged.news hjudge).trans (judgeBudget_news _ _ _)
  have hplant : ∀ c sh, Blocks.plantNews (.of own (broadcast .budget sender g [x, y]) s.dev.shop.rep) sh c =
      if own then c.budgetOutcome (be16 x y) j.void sh
      else if j.taken then c.rivalBudget s.dev.shop.rep sh else c := fun c sh => by
    unfold Blocks.plantNews Applied.taken Applied.of broadcast
    dsimp only
    rw [hparse, hjudge]
  rw [Blocks.tellAll_budget hparse hnews (hb.role.trans hrole), hjudge, hplant] at heq
  exact .of_costAfter (hb.streamNews _ _) (((Blocks.QueueMoved.refl b).streamNews _ _).host.trans hhost) heq

/-! ## JOIN and GONE (R54, R55, R61, R96, R98) -/

/-- What the other blocks are told of a JOIN or a GONE at a PLANT station: no grant (R100). -/
theorem Blocks.tellAll_members_of_plant {a : Applied} (h : a.OfMembers) {b : Blocks} (hrole : b.pres.role = .plant)
    (sh : Shop) :
    b.tellAll a 0 sh = (((((b.streamNews a sh).leaveNews a sh).presenceNews a sh).plantNews a sh).costNews a sh) := by
  have hstream : (b.streamNews a sh).pres.role = .plant := (((Tells.refl b).streamNews a sh).role).trans hrole
  rw [Blocks.tellAll_ofMembers h, Blocks.grantReport_of_plant hstream]

theorem Blocks.streamNews_station (a : Applied) (sh : Shop) (b : Blocks) :
    (b.streamNews a sh).pres.station = b.pres.station := ((Tells.refl b).streamNews a sh).station

/-- A GONE from another station that names a third one: the presence unit withdraws its own GONE of it, and the plant unit
hears whether the plant is absent (R60, R61, R98). -/
theorem Blocks.tellAll_gone {a : Applied} {x : Nat} (hc : a.change = some (.gone x)) (hn : a.out.news = [])
    (htaken : a.taken = true) (hown : a.own = false) {b : Blocks} (hrole : b.pres.role = .plant)
    (hx : x ≠ b.pres.station) (sh : Shop) :
    b.tellAll a 0 sh =
      ((((b.streamNews a sh).withdraw .presence (isGoneOf x)).plantAbsent a.before sh).costAfter a.before sh) := by
  have hleave : (b.streamNews a sh).leaveNews a sh = b.streamNews a sh := if_neg (by simp [Applied.reenters, hc])
  have hpresence : (b.streamNews a sh).presenceNews a sh = (b.streamNews a sh).withdraw .presence (isGoneOf x) := by
    unfold Blocks.presenceNews
    rw [hc]
    dsimp only
    rw [if_pos htaken, hown, if_neg (by simp [Blocks.streamNews_station, hx])]
    rfl
  rw [Blocks.tellAll_members_of_plant ⟨hn, Or.inr (Or.inr ⟨x, hc⟩)⟩ hrole, hleave, hpresence]
  simp [Blocks.plantNews, Blocks.costNews, Applied.reenters, hc]

/-- A JOIN of another station that is a member is a leave to the plant unit and the cost unit (R55). -/
theorem Blocks.tellAll_join_again {a : Applied} {role : Role} (hc : a.change = some (.join role)) (hn : a.out.news = [])
    (hown : a.own = false) (hm : memberOf a.frame.sender a.before = true) {b : Blocks} (hrole : b.pres.role = .plant)
    (sh : Shop) :
    b.tellAll a 0 sh = (((b.streamNews a sh).plantAbsent a.before sh).costAfter a.before sh) := by
  have hreenters : a.reenters = true := by simp [Applied.reenters, hc, hm]
  rw [Blocks.tellAll_members_of_plant ⟨hn, Or.inr (Or.inl ⟨role, hc⟩)⟩ hrole]
  simp [Blocks.leaveNews, Blocks.presenceNews, Blocks.plantNews, Blocks.costNews, hreenters, hc, hown]

theorem judgeGone_news (c : Ctx) (x : Nat) (r : Replica) : (judgeGone c x r).news = [] := by
  unfold judgeGone
  split <;> rfl

/-- A GONE of a member is taken. -/
theorem judgeFrame_gone {c : Ctx} {x : Byte} {r : Replica} (hx : within 1 15 x.toNat = true)
    (hm : memberOf x.toNat r = true) (sender : Nat) :
    judgeFrame c sender .gone [x] r = takenAs (r.leave c x.toNat) := by
  have hparse : parseChange .gone [x] = some (.gone x.toNat) := if_pos hx
  exact (judgeFrame_of_parse hparse r).trans (if_pos hm)

theorem gone_told {sender : BitVec 4} {g : Word16} {s : State} {x : Byte} (hrole : s.dev.blk.pres.role = .plant)
    (ht : s.takes g sender [x]) (hx : within 1 15 x.toNat = true) (hm : memberOf x.toNat s.dev.shop.rep = true)
    (hfrom : sender.toNat ≠ s.dev.blk.pres.station) (hne : x.toNat ≠ s.dev.blk.pres.station) :
    Gives (exec (.gone sender g [x]) s) (s.PlantTold (fun b =>
      b.plantAbsent s.dev.shop.rep (s.dev.shop.moved g (s.dev.shop.rep.leave (Ctx.whole g) x.toNat)))) := by
  have hjudge := judgeFrame_gone (c := Ctx.whole g) hx hm sender.toNat
  have hparse : (Applied.of false (broadcast .gone sender g [x]) s.dev.shop.rep).change = some (.gone x.toNat) := if_pos hx
  obtain ⟨b, hb, hhost, htells⟩ := frameIn_tells (own := false) (k := .gone) hrole ht rfl hfrom
  refine htells.mono (fun t heq => ?_)
  rw [Blocks.tellAll_gone hparse (congrArg Judged.news hjudge) (congrArg Judged.taken hjudge) rfl
    (hb.role.trans hrole) (hb.station.symm ▸ hne), hjudge] at heq
  exact .of_costAfter ((hb.streamNews _ _).withdraw (by decide) _)
    (((Blocks.QueueMoved.refl b).streamNews _ _).host.trans hhost) heq

/-! ### JOIN -/

theorem parseChange_join (role : Role) : parseChange .join [byte1 role.code] = some (.join role) := by
  cases role <;> rfl

theorem judgeFrame_join_eq (c : Ctx) (sender : Nat) (role : Role) (r : Replica) :
    judgeFrame c sender .join [byte1 role.code] r = judgeJoin c sender role r :=
  judgeFrame_of_parse (parseChange_join role) r

theorem join_again_told {sender : BitVec 4} {g : Word16} {s : State} {role : Role} (hrole : s.dev.blk.pres.role = .plant)
    (ht : s.takes g sender [byte1 role.code]) (hm : memberOf sender.toNat s.dev.shop.rep = true)
    (hfrom : sender.toNat ≠ s.dev.blk.pres.station) :
    Gives (exec (.join sender g [byte1 role.code]) s) (s.PlantTold (fun b =>
      b.plantAbsent s.dev.shop.rep
        (s.dev.shop.moved g (judgeJoin (Ctx.whole g) sender.toNat role s.dev.shop.rep).rep))) := by
  have hjudge := judgeFrame_join_eq (Ctx.whole g) sender.toNat role s.dev.shop.rep
  obtain ⟨b, hb, hhost, htells⟩ := frameIn_tells (own := false) (k := .join) hrole ht rfl hfrom
  refine htells.mono (fun t heq => ?_)
  rw [Blocks.tellAll_join_again (role := role) (parseChange_join role) (congrArg Judged.news hjudge) rfl hm
    (hb.role.trans hrole), hjudge] at heq
  exact .of_costAfter (hb.streamNews _ _) (((Blocks.QueueMoved.refl b).streamNews _ _).host.trans hhost) heq

/-! ### The own JOIN (R54, R55) -/

/-- The station is a MEMBER with its serial set, it watches, and JOINED is posted (R54). -/
def Blocks.joined (sh : Shop) (b : Blocks) : Blocks :=
  ((((b.onPres (fun p => { p with mem := .member, helloT := b.after 1000 })).setSerial sh).beginWatch sh)).post
    (.joined b.pres.station b.pres.role)

theorem Blocks.enterMember_eq (sh : Shop) (b : Blocks) :
    b.enterMember sh = (((b.joined sh).plantLive sh).plannerEnters sh).askCheck sh := rfl

theorem Blocks.joined_plant (sh : Shop) (b : Blocks) : (b.joined sh).plant = b.plant := Blocks.post_plant _ _

theorem Blocks.joined_line (sh : Shop) (b : Blocks) : (b.joined sh).line = b.line := Blocks.post_line _ _

theorem Blocks.joined_pres (sh : Shop) (b : Blocks) :
    (b.joined sh).pres.mem = .member ∧ (b.joined sh).pres.role = b.pres.role ∧
      (b.joined sh).pres.station = b.pres.station := by
  unfold Blocks.joined
  rw [Blocks.post_pres]
  exact ⟨rfl, rfl, rfl⟩

theorem Blocks.QueueMoved.plantAbsent {a b : Blocks} (h : a.QueueMoved b) (before : Replica) (sh : Shop) :
    a.QueueMoved (b.plantAbsent before sh) := by
  unfold Blocks.plantAbsent Blocks.leaveStandby
  repeat' split
  · exact (h.onPlant _).ledgerReport sh
  · exact h.ledgerReport sh
  · exact h

/-- The leave that an own JOIN may be moves neither the membership nor the straps (R55). -/
theorem Blocks.leaveNews_pres (a : Applied) (sh : Shop) (b : Blocks) :
    (b.leaveNews a sh).pres.mem = b.pres.mem ∧ (b.leaveNews a sh).pres.role = b.pres.role ∧
      (b.leaveNews a sh).pres.station = b.pres.station := by
  unfold Blocks.leaveNews
  split
  · have hcost := (Blocks.PlantStands.refl (b.plantAbsent a.before sh)).costAfter a.before sh
    have hpres := ((Blocks.QueueMoved.refl b).plantAbsent a.before sh).pres
    rw [hcost.mem, hcost.role, hcost.station, hpres]
    exact ⟨rfl, rfl, rfl⟩
  · exact ⟨rfl, rfl, rfl⟩

/-- The own JOIN of a JOINING station tells its leave, and then its entry (R54, R55, log 6). -/
theorem Blocks.tellAll_join_own {a : Applied} {role : Role} (hc : a.change = some (.join role)) (hn : a.out.news = [])
    (hown : a.own = true) {b : Blocks} (hrole : b.pres.role = .plant) (hm : b.pres.mem = .joining) (sh : Shop) :
    b.tellAll a 0 sh = ((((b.streamNews a sh).leaveNews a sh).enterMember sh).costNews a sh) := by
  have hmem : ((b.streamNews a sh).leaveNews a sh).pres.mem = .joining :=
    ((Blocks.leaveNews_pres a sh _).1.trans ((Moves.refl false b).streamNews a sh |>.mem rfl)).trans hm
  rw [Blocks.tellAll_members_of_plant ⟨hn, Or.inr (Or.inl ⟨role, hc⟩)⟩ hrole]
  simp [Blocks.presenceNews, Blocks.plantNews, hc, hown, hmem]

theorem Blocks.PlantStands.joinNews {a b : Blocks} (h : a.PlantStands b) {x : Applied} {role : Role}
    (hc : x.change = some (.join role)) (sh : Shop) : a.PlantStands (b.costNews x sh) := by
  unfold Blocks.costNews
  rw [hc]
  dsimp only
  split
  · exact h
  · exact h.costAfter _ sh

theorem Blocks.plantLive_pres (sh : Shop) (b : Blocks) : (b.plantLive sh).pres = b.pres := by
  unfold Blocks.plantLive Blocks.enterStandby
  repeat' split
  · exact Blocks.post_pres _ _
  · rfl
  · exact ((Blocks.QueueMoved.refl b).plantCompare sh).pres
  · rfl

/-- At its own JOIN the plant unit hears of the leave, if there was a member to leave, and of the entry (R54, R55). -/
theorem join_own_told {sender : BitVec 4} {g : Word16} {s : State} {role : Role} (hrole : s.dev.blk.pres.role = .plant)
    (ht : s.takes g sender [byte1 role.code]) (hfrom : s.ownFrame sender .join) (hm : s.dev.blk.pres.mem = .joining) :
    let sh := s.dev.shop.moved g (judgeJoin (Ctx.whole g) sender.toNat role s.dev.shop.rep).rep
    ∃ b, s.dev.blk.PlantStands b ∧ Gives (exec (.join sender g [byte1 role.code]) s) (fun t =>
      (((b.leaveNews (.of true (broadcast .join sender g [byte1 role.code]) s.dev.shop.rep) sh).joined sh).plantLive
        sh).PlantStands t.dev.blk) := by
  intro sh
  have hjudge := judgeFrame_join_eq (Ctx.whole g) sender.toNat role s.dev.shop.rep
  have hchange : (Applied.of true (broadcast .join sender g [byte1 role.code]) s.dev.shop.rep).change =
      some (.join role) := parseChange_join role
  obtain ⟨b, hb, _, htells⟩ := frameIn_tells (own := true) (k := .join) hrole ht rfl hfrom
  refine ⟨_, hb.streamNews (.of true (broadcast .join sender g [byte1 role.code]) s.dev.shop.rep) sh,
    htells.mono (fun t heq => ?_)⟩
  rw [Blocks.tellAll_join_own hchange (congrArg Judged.news hjudge) rfl (hb.role.trans hrole) (hb.mem.trans hm),
    hjudge] at heq
  rw [heq, Blocks.enterMember_eq]
  refine (((Blocks.PlantStands.refl _).plannerEnters ?_ sh).askCheck sh).joinNews hchange sh
  rw [Blocks.plantLive_pres, (Blocks.joined_pres sh _).2.1, (Blocks.leaveNews_pres _ sh _).2.1]
  exact ((Tells.refl b).streamNews _ sh).role.trans (hb.role.trans hrole)

end Sys2Proof.Machine


/-! The clauses of O55, one frame at a time, and the obligation from them. -/

namespace Sys2Proof.Machine

/-! ## Another station's BUDGET (R96, R97) -/

/-- The ledger of a BUDGET taken has its sender as the plant and its value as the budget (R89). -/
def Replica.budgeted (x v : Nat) (r : Replica) : Replica :=
  { r with ledger := Ledger.settled { r.ledger with budget := v, plant := some x } }

theorem rival_budget_told {sender : BitVec 4} {g : Word16} {s : State} {x y : Byte}
    (hrole : s.dev.blk.pres.role = .plant) (ht : s.takes g sender [x, y]) (hv : be16 x y ≤ 8000)
    (hfrom : sender.toNat ≠ s.dev.blk.pres.station) (hmember : roleOf sender.toNat s.dev.shop.rep = some .plant)
    (hplant : s.dev.shop.rep.ledger.plant = none ∨ s.dev.shop.rep.ledger.plant = some sender.toNat) :
    Gives (exec (.budget sender g [x, y]) s) (s.PlantTold (fun b =>
      b.rivalBudget s.dev.shop.rep
        (s.dev.shop.moved g (s.dev.shop.rep.budgeted sender.toNat (be16 x y))))) := by
  have htold := budget_told (own := false) hrole ht hv hfrom
  rw [judgeBudget_taken hmember hplant] at htold
  exact htold

/-- With the plant absent, another station's BUDGET puts the plant unit in standby (R97, log 55). -/
theorem rival_budget_standsBy {sender : BitVec 4} {g : Word16} {s : State} {x y : Byte}
    (hrole : s.dev.blk.pres.role = .plant) (ht : s.takes g sender [x, y]) (hv : be16 x y ≤ 8000)
    (hfrom : sender.toNat ≠ s.dev.blk.pres.station) (hmember : roleOf sender.toNat s.dev.shop.rep = some .plant)
    (hplant : s.dev.shop.rep.ledger.plant = none) (hst : s.dev.blk.plant.standby = false) :
    Gives (exec (.budget sender g [x, y]) s) (fun t =>
      (t.dev.blk.plant.standby = true ∧ t.dev.blk.line.heldWaiting .plant isBudget = false ∧
        s.posts t (.plantConflict sender.toNat g)) ∧ t.dev.blk.plant.lastSent = be16 x y) := by
  have hplants := Blocks.plants_of hrole ht.1.1
  refine (rival_budget_told hrole ht hv hfrom hmember (Or.inl hplant)).mono (fun t htold => ?_)
  have hrival : ∀ (b : Blocks) (sh : Shop), b.rivalBudget s.dev.shop.rep sh = b.reportIntoStandby sh :=
    fun b sh => if_pos (by simp [hplant])
  simp only [hrival] at htold
  refine ⟨htold.stoodBy (fun b hb => Blocks.reportIntoStandby_stoodBy (hb.plants hplants) (hb.plant.symm ▸ hst) _), ?_⟩
  rw [htold.plant_eq (fun b hb => (Blocks.reportIntoStandby_plant (hb.plants hplants) _).trans
    (congrArg (fun u : PlantUnit => { u with lastSent := be16 x y, standby := true }) hb.plant))]

/-- Another station's BUDGET at a silent plant unit that does not enter standby by it (R96). -/
theorem rival_budget_reported {sender : BitVec 4} {g : Word16} {s : State} {x y : Byte}
    (hrole : s.dev.blk.pres.role = .plant) (ht : s.takes g sender [x, y]) (hv : be16 x y ≤ 8000)
    (hfrom : sender.toNat ≠ s.dev.blk.pres.station) (hmember : roleOf sender.toNat s.dev.shop.rep = some .plant)
    (hplant : s.dev.shop.rep.ledger.plant = none ∧ s.dev.blk.plant.standby = true ∨
      s.dev.shop.rep.ledger.plant = some sender.toNat)
    (hsilent : s.dev.blk.plant.silent) :
    Gives (exec (.budget sender g [x, y]) s) (fun t =>
      t.dev.blk.plant = { s.dev.blk.plant with lastSent := be16 x y }) := by
  have hplants := Blocks.plants_of hrole ht.1.1
  refine (rival_budget_told hrole ht hv hfrom hmember (hplant.imp_left And.left)).mono
    (fun t htold => htold.plant_eq (fun b hb => ?_))
  unfold Blocks.rivalBudget
  rcases hplant with ⟨hnone, hst⟩ | hsome
  · rw [if_pos (by simp [hnone]), Blocks.reportIntoStandby_plant (hb.plants hplants), hb.plant, ← hst]
    rfl
  · rw [if_neg (by simp [hsome]), Blocks.ledgerReport_silent_plant (hb.plants hplants) (hb.plant.symm ▸ hsilent), hb.plant]
    rfl

/-! ## The own BUDGET (R97, R114) -/

theorem own_budget_told {sender : BitVec 4} {g : Word16} {s : State} {x y : Byte} {j : Judged}
    (hrole : s.dev.blk.pres.role = .plant) (ht : s.takes g sender [x, y]) (hv : be16 x y ≤ 8000)
    (hfrom : s.ownFrame sender .budget) (hj : judgeBudget sender.toNat (be16 x y) s.dev.shop.rep = j) :
    Gives (exec (.budget sender g [x, y]) s) (s.PlantTold (fun b =>
      b.budgetOutcome (be16 x y) j.void (s.dev.shop.moved g j.rep))) := by
  have htold := budget_told (own := true) hrole ht hv hfrom
  rw [hj] at htold
  exact htold

theorem own_budget_taken {sender : BitVec 4} {g : Word16} {s : State} {x y : Byte}
    (hrole : s.dev.blk.pres.role = .plant) (ht : s.takes g sender [x, y]) (hv : be16 x y ≤ 8000)
    (hfrom : s.ownFrame sender .budget) (hmember : roleOf sender.toNat s.dev.shop.rep = some .plant)
    (hplant : s.dev.shop.rep.ledger.plant = none ∨ s.dev.shop.rep.ledger.plant = some sender.toNat)
    (hpub : s.dev.blk.plant.published = none ∨ s.dev.blk.plant.published = some (be16 x y)) :
    Gives (exec (.budget sender g [x, y]) s) (fun t =>
      t.dev.blk.plant = { s.dev.blk.plant with lastSent := be16 x y }) := by
  have hplants := Blocks.plants_of hrole ht.1.1
  refine (own_budget_told hrole ht hv hfrom (judgeBudget_taken hmember hplant)).mono
    (fun t htold => htold.plant_eq (fun b hb => ?_))
  rw [← hb.plant] at hpub ⊢
  exact Blocks.budgetOutcome_taken_plant (hb.plants hplants) hpub _

/-- Its own BUDGET void for another plant puts the plant unit in standby (R97). -/
theorem own_budget_otherPlant {sender : BitVec 4} {g : Word16} {s : State} {x y : Byte} {z : Nat}
    (hrole : s.dev.blk.pres.role = .plant) (ht : s.takes g sender [x, y]) (hv : be16 x y ≤ 8000)
    (hfrom : s.ownFrame sender .budget) (hmember : roleOf sender.toNat s.dev.shop.rep = some .plant)
    (hplant : s.dev.shop.rep.ledger.plant = some z) (hz : z ≠ sender.toNat) (hst : s.dev.blk.plant.standby = false) :
    Gives (exec (.budget sender g [x, y]) s) (fun t =>
      t.dev.blk.plant.standby = true ∧ t.dev.blk.line.heldWaiting .plant isBudget = false ∧
        s.posts t (.plantConflict z g)) := by
  have hplants := Blocks.plants_of hrole ht.1.1
  refine (own_budget_told hrole ht hv hfrom (judgeBudget_otherPlant hmember hplant hz)).mono (fun t htold => ?_)
  have hstands := htold.stoodBy (sh := s.dev.shop.moved g s.dev.shop.rep) (fun b hb =>
    (Blocks.budgetOutcome_otherPlant (hb.plants hplants) _ _).symm ▸
      Blocks.enterStandby_stoodBy (hb.plants hplants) (hb.plant.symm ▸ hst) _)
  rw [show (s.dev.shop.moved g s.dev.shop.rep).rep.ledger.plant = some z from hplant] at hstands
  exact hstands

/-- Its own BUDGET void for a station that is no PLANT member gives it the ledger's budget (R96, R114). -/
theorem own_budget_notPlant {sender : BitVec 4} {g : Word16} {s : State} {x y : Byte}
    (hrole : s.dev.blk.pres.role = .plant) (ht : s.takes g sender [x, y]) (hv : be16 x y ≤ 8000)
    (hfrom : s.ownFrame sender .budget) (hmember : roleOf sender.toNat s.dev.shop.rep ≠ some .plant)
    (hpub : s.dev.blk.plant.published = none) :
    Gives (exec (.budget sender g [x, y]) s) (fun t =>
      t.dev.blk.plant = { s.dev.blk.plant with lastSent := s.dev.shop.rep.ledger.budget }) := by
  have hplants := Blocks.plants_of hrole ht.1.1
  refine (own_budget_told hrole ht hv hfrom (judgeBudget_notPlant hmember)).mono
    (fun t htold => htold.plant_eq (fun b hb => ?_))
  rw [← hb.plant] at hpub ⊢
  exact (congrArg Blocks.plant (Blocks.budgetOutcome_notPlant (hb.plants hplants) _ _)).trans
    (Blocks.ledgerReport_silent_plant (hb.plants hplants) (Or.inr hpub) _)

/-! ## The plant's absence (R98) -/

theorem Replica.leave_ledger {c : Ctx} (hc : c.ledgerDone = true) (x : Nat) (r : Replica) :
    (r.leave c x).ledger = r.ledger.leave x := if_pos hc

/-- The plant's leaving drains the ledger (R95). -/
theorem Replica.leave_plant {c : Ctx} (hc : c.ledgerDone = true) {x : Nat} {r : Replica} (h : r.ledger.plant = some x) :
    (r.leave c x).ledger.plant = none ∧ (r.leave c x).ledger.budget = 0 := by
  rw [Replica.leave_ledger hc, Ledger.leave_eq, if_pos h]
  exact ⟨rfl, rfl⟩

/-- Another station's leaving keeps the plant (R95). -/
theorem Replica.leave_other {c : Ctx} (hc : c.ledgerDone = true) {x : Nat} {r : Replica} (h : r.ledger.plant ≠ some x) :
    (r.leave c x).ledger.plant = r.ledger.plant := by
  rw [Replica.leave_ledger hc, Ledger.leave_eq, if_neg h]
  split <;> rfl

theorem judgeJoin_ledger (c : Ctx) (x : Nat) (role : Role) (r : Replica) :
    (judgeJoin c x role r).rep.ledger = if memberOf x r then (r.leave c x).ledger else r.ledger := by
  unfold judgeJoin takenAs
  dsimp only
  split <;> rfl

/-- What the plant's absence does to the plant unit of a station: standby ends, and a value published is offered (R98,
R113). -/
theorem absence_ends_standby {s : State} {o : Host.Outcome State Fault Refusal} {g : Word16} {r : Replica}
    (hrole : s.dev.blk.pres.role = .plant) (hinert : s.dev.blk.pres.mem ≠ .inert)
    (htold : Gives o (s.PlantTold (fun b => b.plantAbsent s.dev.shop.rep (s.dev.shop.moved g r))))
    (hb : s.dev.shop.rep.ledger.plant ≠ none) (ha : r.ledger.plant = none ∧ r.ledger.budget = 0) :
    (s.dev.blk.plant.published = none →
      Gives o (fun t => t.dev.blk.plant.standby = false ∧ t.dev.blk.plant.lastSent = 0)) ∧
    (∀ v, s.isLive → s.dev.blk.plant.published = some v → 0 < v → v ≤ 8000 → s.dev.blk.plant.band ≠ none →
      s.dev.blk.plant.band ≠ some .halt → s.dev.blk.line.heldBudget = none → s.dev.blk.plant.spacingT = none →
      Gives o (fun t => t.dev.blk.plant.standby = false ∧ t.dev.blk.plant.lastSent = v ∧
        t.dev.blk.line.heldBudget = some v ∧ t.dev.blk.plant.spacingT = some (s.dev.blk.now + 500))) := by
  have hplants := Blocks.plants_of hrole hinert
  obtain ⟨hnone, hzero⟩ := ha
  refine ⟨fun hpub => htold.mono (fun t h => ?_), fun v hlive hpub hpos hle hband hhalt hheld hspacing =>
    htold.mono (fun t h => ?_)⟩
  · obtain ⟨b, hstands, _, ht⟩ := h
    rw [ht.plant, Blocks.plantAbsent_unpublished (hstands.plants hplants) hb hnone (hstands.plant.symm ▸ hpub)]
    exact ⟨rfl, hzero⟩
  · obtain ⟨b, hstands, _, ht⟩ := h
    have hready : s.dev.blk.Ready v (s.dev.shop.moved g r) :=
      ⟨hplants, hlive.1, hlive.2, hpub, hpos, hband, hhalt, hheld, hspacing⟩
    obtain ⟨hplant, hholds⟩ := (hstands.ready hready).plantAbsent hb hnone hzero
    rw [(ht.budgets.holdsBudget hholds).heldBudget, budgetValue_mkFrame hle, ht.plant, hplant, hstands.now]
    exact ⟨rfl, rfl, rfl, rfl⟩

/-! ## The own JOIN (R54, R55, R97) -/

theorem live_of {sh : Shop} {b : Blocks} (hm : b.pres.mem = .member) (hs : sh.state = .current) : live sh b = true := by
  simp [live, Blocks.isMember, Shop.current, hm, hs]

/-- An own JOIN with another plant puts the station that becomes LIVE in standby (R54, R97). -/
theorem join_own_standsBy {sender : BitVec 4} {g : Word16} {s : State} {role : Role} {z : Nat}
    (hrole : s.dev.blk.pres.role = .plant) (ht : s.takes g sender [byte1 role.code]) (hfrom : s.ownFrame sender .join)
    (hm : s.dev.blk.pres.mem = .joining) (hplant : s.dev.shop.rep.ledger.plant = some z)
    (hz : z ≠ s.dev.blk.pres.station) :
    Gives (exec (.join sender g [byte1 role.code]) s) (fun t => t.dev.blk.plant.standby = true ∧
      (s.dev.blk.plant.standby = false → t.dev.blk.line.heldWaiting .plant isBudget = false)) := by
  obtain ⟨b, hb, htold⟩ := join_own_told hrole ht hfrom hm
  refine htold.mono (fun t htold => ?_)
  generalize hsh : s.dev.shop.moved g (judgeJoin (Ctx.whole g) sender.toNat role s.dev.shop.rep).rep = sh at htold
  have hafter : sh.rep.ledger.plant = some z := by
    have hne : s.dev.shop.rep.ledger.plant ≠ some sender.toNat := by simp [hplant, hfrom.1, hz]
    rw [← hsh, ← hplant]
    show (judgeJoin (Ctx.whole g) sender.toNat role s.dev.shop.rep).rep.ledger.plant = _
    rw [judgeJoin_ledger]
    split
    · exact Replica.leave_other rfl hne
    · rfl
  have hcurrent : sh.state = .current := by
    rw [← hsh]
    exact ht.2.1
  generalize Applied.of true (broadcast .join sender g [byte1 role.code]) s.dev.shop.rep = a at htold
  have hleave : s.dev.blk.PlantStands (b.leaveNews a sh) := by
    unfold Blocks.leaveNews
    split
    · rw [Blocks.plantAbsent_of_present (by simp [hafter])]
      exact hb.costAfter _ sh
    · exact hb
  generalize b.leaveNews a sh = c at htold hleave
  obtain ⟨hmem, hrole', hstation⟩ := Blocks.joined_pres sh c
  have hplants : (c.joined sh).plants = true :=
    Blocks.plants_of (hrole'.trans (hleave.role.trans hrole)) (by simp [hmem])
  rw [Blocks.plantLive_otherPlant hplants (live_of hmem hcurrent) hafter
    (by rw [hstation, hleave.station]; exact hz)] at htold
  refine ⟨?_, fun hst => ?_⟩
  · rw [htold.plant, Blocks.enterStandby_plant hplants]
  · have hst' : (c.joined sh).plant.standby = false := by
      rw [Blocks.joined_plant, hleave.plant]
      exact hst
    exact htold.heldWaiting (Blocks.enterStandby_stoodBy hplants hst' sh).heldWaiting

/-- An own JOIN of the plant itself is its absence and then its entry (R55, R98, log 6). -/
theorem join_own_absent {sender : BitVec 4} {g : Word16} {s : State} {role : Role}
    (hrole : s.dev.blk.pres.role = .plant) (ht : s.takes g sender [byte1 role.code]) (hfrom : s.ownFrame sender .join)
    (hm : s.dev.blk.pres.mem = .joining) (hmember : memberOf sender.toNat s.dev.shop.rep = true)
    (hplant : s.dev.shop.rep.ledger.plant = some sender.toNat) (hpub : s.dev.blk.plant.published = none) :
    Gives (exec (.join sender g [byte1 role.code]) s) (fun t =>
      t.dev.blk.plant = { s.dev.blk.plant with standby := false, lastSent := 0 }) := by
  obtain ⟨b, hb, htold⟩ := join_own_told hrole ht hfrom hm
  refine htold.mono (fun t htold => ?_)
  generalize hsh : s.dev.shop.moved g (judgeJoin (Ctx.whole g) sender.toNat role s.dev.shop.rep).rep = sh at htold
  obtain ⟨hnone, hzero⟩ : sh.rep.ledger.plant = none ∧ sh.rep.ledger.budget = 0 := by
    have hledger : sh.rep.ledger = (s.dev.shop.rep.leave (Ctx.whole g) sender.toNat).ledger := by
      rw [← hsh]
      exact (judgeJoin_ledger _ _ _ _).trans (if_pos hmember)
    rw [hledger]
    exact Replica.leave_plant rfl hplant
  have hreenters : (Applied.of true (broadcast .join sender g [byte1 role.code]) s.dev.shop.rep).reenters = true := by
    have hparse := parseChange_join role
    unfold Applied.reenters Applied.of broadcast
    dsimp only
    rw [hparse]
    exact hmember
  generalize ha : Applied.of true (broadcast .join sender g [byte1 role.code]) s.dev.shop.rep = a at *
  have hbefore : a.before.ledger.plant ≠ none := by
    rw [← ha]
    simp [Applied.of, hplant]
  have hplants := hb.plants (Blocks.plants_of hrole ht.1.1)
  have hpub' : b.plant.published = none := hb.plant.symm ▸ hpub
  have hleave : (b.leaveNews a sh).plant = { s.dev.blk.plant with standby := false, lastSent := 0 } := by
    unfold Blocks.leaveNews
    rw [if_pos hreenters, ((Blocks.PlantStands.refl _).costAfter a.before sh).plant,
      Blocks.plantAbsent_unpublished hplants hbefore hnone hpub', hb.plant, hzero]
  have hjoined : ((b.leaveNews a sh).joined sh).plant = { s.dev.blk.plant with standby := false, lastSent := 0 } :=
    (Blocks.joined_plant sh _).trans hleave
  rw [htold.plant, Blocks.plantLive_absent hnone ((congrArg PlantUnit.published hjoined).trans hpub)]
  exact hjoined

/-! ## The own REBASE (R47, R96 to R98) -/

/-- The asking is over and SYNCED is posted (R44, R47). -/
def Blocks.syncedAt (sh : Shop) (b : Blocks) : Blocks :=
  (((b.clearAsks.setAskT none).withdraw .table isSyncAsk).withdraw .table isRebase).post (.synced sh.gen)

theorem Blocks.syncedAt_plant (sh : Shop) (b : Blocks) : (b.syncedAt sh).plant = b.plant := Blocks.post_plant _ _

theorem Blocks.syncedAt_pres (sh : Shop) (b : Blocks) : (b.syncedAt sh).pres = { b.pres with askT := none } :=
  Blocks.post_pres _ _

/-- The plant unit's part in a replica that becomes CURRENT at a PLANT station comes behind the presence unit's. -/
theorem Blocks.becomeCurrent_plant {b : Blocks} (hrole : b.pres.role = .plant) (sh : Shop) :
    (b.becomeCurrent 0 sh).plant = (((b.syncedAt sh).presenceCurrent sh).plantCurrent sh).plant := by
  have hgrant : (b.syncedAt sh).grantReport 0 sh = b.syncedAt sh :=
    Blocks.grantReport_of_plant (by rw [Blocks.syncedAt_pres]; exact hrole) sh
  have heq : b.becomeCurrent 0 sh =
      ((((((b.syncedAt sh).grantReport 0 sh).presenceCurrent sh).plantCurrent sh).plannerCurrent sh).askCheck
        sh).costCurrent sh := rfl
  rw [heq, hgrant]
  generalize ((b.syncedAt sh).presenceCurrent sh).plantCurrent sh = c
  have hplanner : Moves false c (c.plannerCurrent sh) := by
    unfold Blocks.plannerCurrent
    dsimp only
    split
    · exact ((Moves.refl false c).rereadJobs sh).searchOrLook sh
    · exact (Moves.refl false c).rereadJobs sh
  exact ((hplanner.askCheck sh).costCurrent sh).plant rfl

/-- The presence unit's part leaves the plant unit, and the station on the air (R53, R56). -/
theorem Blocks.presenceCurrent_plant (sh : Shop) (b : Blocks) :
    (b.presenceCurrent sh).plant = b.plant ∧ (b.pres.mem ≠ .inert → (b.presenceCurrent sh).pres.mem ≠ .inert) := by
  have hjoin : ∀ c : Blocks, c.offerJoin.plant = c.plant ∧ c.offerJoin.pres.mem = .joining := by
    intro c
    unfold Blocks.offerJoin
    dsimp only
    split
    · exact ⟨rfl, rfl⟩
    · rw [Blocks.offer_plant, Blocks.offer_pres]
      exact ⟨rfl, rfl⟩
  have hrejoin : (b.rejoinShop sh.gen).plant = b.plant ∧ (b.rejoinShop sh.gen).pres.mem = .joining := by
    obtain ⟨hplant, hmem⟩ := hjoin (b.leaveMember.post (.goneSelf sh.gen))
    have htold := ((Moves.refl false (b.leaveMember.post (.goneSelf sh.gen)).offerJoin).plannerLeaves).sawLeaves
    exact ⟨(htold.plant rfl).trans (hplant.trans (Blocks.post_plant _ _)), (htold.mem rfl).trans hmem⟩
  unfold Blocks.presenceCurrent
  repeat' split
  · exact ⟨(hjoin b).1, fun _ => by simp [(hjoin b).2]⟩
  · exact ⟨(hjoin b).1, fun _ => by simp [(hjoin b).2]⟩
  · exact ⟨rfl, id⟩
  · exact ⟨hrejoin.1, fun _ => by simp [hrejoin.2]⟩
  all_goals exact ⟨rfl, id⟩

/-- Its own REBASE makes the replica of a station with no build CURRENT as it stands (R47). -/
theorem rebase_own_told {sender : BitVec 4} {g : Word16} {p : List Byte} {s : State}
    (hrole : s.dev.blk.pres.role = .plant) (hh : s.hears sender p) (hfrom : s.ownFrame sender .rebase)
    (hstate : s.dev.shop.state ≠ .current) (hbuild : s.dev.shop.build = none) :
    ∃ b, s.dev.blk.PlantStands b ∧ Gives (exec (.rebase sender g p) s) (fun t =>
      t.dev.blk.plant =
        (((b.syncedAt { s.dev.shop with state := .current }).presenceCurrent
          { s.dev.shop with state := .current }).plantCurrent { s.dev.shop with state := .current }).plant) := by
  obtain ⟨b, hb, _, heq⟩ := frameIn_takesKind (own := true) (k := .rebase) (g := g) hh (by decide) hfrom
  refine ⟨b, hb, _, heq, ?_⟩
  have hrole' : b.pres.role = .plant := hb.role.trans hrole
  have habandoned : s.dev.shop.abandoned = s.dev.shop := by
    unfold Shop.abandoned
    rw [hbuild]
  have hrebase : (Station.rebaseOwn { s.dev with blk := b }).blk =
      b.becomeCurrent 0 { s.dev.shop with state := .current } := by
    have hcurrent : s.dev.shop.current = false := by simp [Shop.current, hstate]
    unfold Station.rebaseOwn
    dsimp only
    rw [if_neg (by simp [hcurrent]), habandoned, effGrant_of_plant hrole']
  exact (congrArg Blocks.plant hrebase).trans (Blocks.becomeCurrent_plant hrole' _)

theorem rebase_own_absent {sender : BitVec 4} {g : Word16} {p : List Byte} {s : State}
    (hrole : s.dev.blk.pres.role = .plant) (hh : s.hears sender p) (hfrom : s.ownFrame sender .rebase)
    (hstate : s.dev.shop.state ≠ .current) (hbuild : s.dev.shop.build = none)
    (hplant : s.dev.shop.rep.ledger.plant = none) (hpub : s.dev.blk.plant.published = none) :
    Gives (exec (.rebase sender g p) s) (fun t =>
      t.dev.blk.plant = { s.dev.blk.plant with standby := false, lastSent := s.dev.shop.rep.ledger.budget }) := by
  obtain ⟨b, hb, htold⟩ := rebase_own_told (g := g) hrole hh hfrom hstate hbuild
  refine htold.mono (fun t ht => ?_)
  rw [ht]
  generalize hsh : ({ s.dev.shop with state := .current } : Shop) = sh
  obtain ⟨hpresence, hair⟩ := Blocks.presenceCurrent_plant sh (b.syncedAt sh)
  have hkept : ((b.syncedAt sh).presenceCurrent sh).plant = s.dev.blk.plant :=
    hpresence.trans ((Blocks.syncedAt_plant sh b).trans hb.plant)
  have hrole' : ((b.syncedAt sh).presenceCurrent sh).pres.role = .plant := by
    rw [((Tells.refl (b.syncedAt sh)).presenceCurrent sh).role, Blocks.syncedAt_pres]
    exact hb.role.trans hrole
  have hair' : ((b.syncedAt sh).presenceCurrent sh).pres.mem ≠ .inert :=
    hair (by rw [Blocks.syncedAt_pres]; exact hb.mem.symm ▸ hh.1)
  have hnone : sh.rep.ledger.plant = none := by
    rw [← hsh]
    exact hplant
  rw [Blocks.plantCurrent_absent (Blocks.plants_of hrole' hair') hnone (hkept.symm ▸ hpub), hkept, ← hsh]

theorem rebase_own_standsBy {sender : BitVec 4} {g : Word16} {p : List Byte} {s : State} {z : Nat}
    (hrole : s.dev.blk.pres.role = .plant) (hh : s.hears sender p) (hfrom : s.ownFrame sender .rebase)
    (hstate : s.dev.shop.state ≠ .current) (hbuild : s.dev.shop.build = none)
    (hplant : s.dev.shop.rep.ledger.plant = some z) (hz : z ≠ s.dev.blk.pres.station)
    (hm : s.dev.blk.pres.mem = .member) (hmember : memberOf s.dev.blk.pres.station s.dev.shop.rep = true) :
    Gives (exec (.rebase sender g p) s) (fun t =>
      t.dev.blk.plant = { s.dev.blk.plant with standby := true, lastSent := s.dev.shop.rep.ledger.budget }) := by
  obtain ⟨b, hb, htold⟩ := rebase_own_told (g := g) hrole hh hfrom hstate hbuild
  refine htold.mono (fun t ht => ?_)
  have hpres : (b.syncedAt { s.dev.shop with state := .current }).pres = { b.pres with askT := none } :=
    Blocks.syncedAt_pres _ b
  have hpresence : (b.syncedAt { s.dev.shop with state := .current }).presenceCurrent
      { s.dev.shop with state := .current } =
        (b.syncedAt { s.dev.shop with state := .current }).beginWatch { s.dev.shop with state := .current } := by
    unfold Blocks.presenceCurrent
    rw [hpres, show ({ b.pres with askT := none } : Presence).mem = .member from hb.mem.trans hm]
    dsimp only
    rw [hb.station]
    exact if_pos hmember
  rw [ht, hpresence]
  generalize hc : (b.syncedAt { s.dev.shop with state := .current }).beginWatch { s.dev.shop with state := .current } = c
  have hmem : c.pres.mem = .member := by
    rw [← hc]
    exact (congrArg Presence.mem hpres).trans (hb.mem.trans hm)
  have hrole' : c.pres.role = .plant := by
    rw [← hc]
    exact (congrArg Presence.role hpres).trans (hb.role.trans hrole)
  have hstation : c.pres.station = s.dev.blk.pres.station := by
    rw [← hc]
    exact (congrArg Presence.station hpres).trans hb.station
  have hkept : c.plant = s.dev.blk.plant := by
    rw [← hc]
    exact (Blocks.syncedAt_plant _ b).trans hb.plant
  have hstands := Blocks.plantCurrent_otherPlant (sh := { s.dev.shop with state := .current })
    (Blocks.plants_of hrole' (by simp [hmem])) (live_of hmem rfl) hplant (hstation.symm ▸ hz)
  rw [hkept] at hstands
  exact hstands

/-! ## The obligation -/

/-- Settles O55, clause by clause: another station's BUDGET (`rival_budget_standsBy`, `rival_budget_reported`), the own one
(`own_budget_taken` and the two void outcomes), the plant's absence (`absence_ends_standby`), the own JOIN and the own
REBASE. -/
theorem plantStandsByAndTakesItsOutcomes : Obligations.PlantStandsByAndTakesItsOutcomes := by
  intro sender g p s hrole hh b u r own mine stands offered absent current
  refine ⟨fun hcur => ?_, fun hfrom hstate hbuild => ?_⟩
  · have ht : s.takes g sender p := ⟨hh, hcur⟩
    refine ⟨?_, ?_, ?_, ?_, ?_⟩
    · rintro x y rfl hv hmember hfrom
      exact ⟨fun hplant hst => rival_budget_standsBy hrole ht hv hfrom hmember hplant hst, fun hplant hsilent =>
        (rival_budget_reported hrole ht hv hfrom hmember hplant hsilent).mono (fun t h => by rw [h]; exact ⟨rfl, rfl⟩)⟩
    · rintro x y rfl hv hfrom
      have hown : own = sender.toNat := hfrom.1.symm
      rw [hown]
      exact ⟨fun hmember hplant hpub =>
          (own_budget_taken hrole ht hv hfrom hmember hplant hpub).mono (fun t h => by rw [h]; exact ⟨rfl, rfl⟩),
        fun z hmember hplant hz hst => own_budget_otherPlant hrole ht hv hfrom hmember hplant hz hst,
        fun hmember hpub =>
          (own_budget_notPlant hrole ht hv hfrom hmember hpub).mono (fun t h => by rw [h]; exact ⟨rfl, rfl⟩)⟩
    · rintro a rfl ha hmember hfrom hne hplant
      exact absence_ends_standby hrole hh.1 (gone_told hrole ht ha hmember hfrom hne)
        (fun h => Option.some_ne_none _ (hplant.symm.trans h)) (Replica.leave_plant rfl hplant)
    · rintro role rfl hmember hfrom hplant
      refine absence_ends_standby hrole hh.1 (join_again_told hrole ht hmember hfrom)
        (fun h => Option.some_ne_none _ (hplant.symm.trans h)) ?_
      rw [judgeJoin_ledger, if_pos hmember]
      exact Replica.leave_plant rfl hplant
    · rintro role rfl hfrom hm
      have hown : own = sender.toNat := hfrom.1.symm
      refine ⟨fun z hplant hz => join_own_standsBy hrole ht hfrom hm hplant hz, fun hmember hplant hpub => ?_⟩
      rw [hown] at hmember hplant
      exact (join_own_absent hrole ht hfrom hm hmember hplant hpub).mono (fun t h => by rw [h]; exact ⟨rfl, rfl⟩)
  · exact ⟨fun hplant hpub =>
        (rebase_own_absent hrole hh hfrom hstate hbuild hplant hpub).mono (fun t h => by rw [h]; exact ⟨rfl, rfl⟩),
      fun z hplant hz hm hmember =>
        (rebase_own_standsBy hrole hh hfrom hstate hbuild hplant hz hm hmember).mono
          (fun t h => by rw [h]; exact ⟨rfl, rfl⟩)⟩

end Sys2Proof.Machine


/-! Bands and the published value (R109, R110, R112), and O53 from them. -/

namespace Sys2Proof.Machine

/-! ## The band after a scan (R109) -/

/-- A band holds a level: the level has reached its lower edge, and no higher band's. -/
def Band.holds (x : Band) (level : Nat) : Prop := x.lower ≤ level ∧ ∀ y : Band, x.lower < y.lower → level < y.lower

theorem bandOf_holds (level : Nat) : (bandOf level).holds level := by
  unfold bandOf Band.holds
  repeat' split
  all_goals
    refine ⟨by simp only [Band.lower]; omega, fun y hy => ?_⟩
    cases y <;> simp only [Band.lower] at hy ⊢ <;> omega

theorem Band.lower_injective : Function.Injective Band.lower := by
  intro x y
  cases x <;> cases y <;> decide

/-- The next band up is the lowest of the bands above. -/
theorem Band.up_lower {x u : Band} (h : x.up = some u) :
    x.lower < u.lower ∧ ∀ z : Band, x.lower < z.lower → u.lower ≤ z.lower := by
  cases x <;> cases h <;> exact ⟨by decide, fun z => by cases z <;> decide⟩

theorem Band.up_none {x : Band} (h : x.up = none) (z : Band) : z.lower ≤ x.lower := by
  cases x <;> cases h
  cases z <;> decide

theorem Band.up_of_next {x y : Band} (hxy : x.lower < y.lower)
    (hnext : ∀ z : Band, x.lower < z.lower → y.lower ≤ z.lower) :
    x.up = some y := by
  cases hup : x.up with
  | none => exact absurd (Band.up_none hup y) (by omega)
  | some u =>
    obtain ⟨hxu, hleast⟩ := Band.up_lower hup
    exact congrArg some (Band.lower_injective (Nat.le_antisymm (hleast y hxy) (hnext u hxu)))

/-- Below its lower edge a band gives way at once to the band that holds the level. -/
theorem bandAfter_down {x : Band} {level : Nat} (h : level < x.lower) : bandAfter (some x) level = bandOf level := if_pos h

theorem bandAfter_up {x y : Band} {level : Nat} (hup : x.up = some y) (h : y.lower + 2 ≤ level) :
    bandAfter (some x) level = y := by
  have hxy := (Band.up_lower hup).1
  unfold bandAfter
  dsimp only
  rw [if_neg (by omega), hup]
  exact if_pos h

theorem bandAfter_stays {x : Band} {level : Nat} (hlow : x.lower ≤ level)
    (h : ∀ y, x.up = some y → level < y.lower + 2) :
    bandAfter (some x) level = x := by
  unfold bandAfter
  dsimp only
  rw [if_neg (by omega)]
  split
  · next y hy => exact if_neg (by have := h y hy; omega)
  · rfl

/-! ## The published value (R110, R112) -/

theorem publishedOf_some (x : Band) (turbid : Bool) (correction : Option Nat) :
    publishedOf (some x) turbid correction =
      some (if x = .halt then 0 else budgetAfter x turbid - correction.getD 0) := by
  cases x <;> rfl

/-- Settles O53: down at once by `bandAfter_down`, up one band by `bandAfter_up`, and the published value by
`publishedOf_some`. -/
theorem bandsAndThePublishedValue : Obligations.BandsAndThePublishedValue := by
  unfold Obligations.BandsAndThePublishedValue
  intro lower budget holds
  refine ⟨bandOf_holds, fun x level h => ?_, fun x y level hxy hnext => ⟨fun h => ?_, fun hlow h => ?_⟩,
    fun level h => ?_, fun _ _ => rfl, fun x turbid correction => ?_⟩
  · rw [bandAfter_down h]
    exact bandOf_holds level
  · exact bandAfter_up (Band.up_of_next hxy hnext) h
  · refine bandAfter_stays hlow (fun u hu => ?_)
    cases hu.symm.trans (Band.up_of_next hxy hnext)
    exact h
  · exact bandAfter_stays h (fun u hu => (Option.some_ne_none u hu.symm).elim)
  · rw [publishedOf_some]
    cases correction <;> rfl

end Sys2Proof.Machine


/-! The fault of the saw as one equation (R158), and JAM, DRY, STOP and the hold timer, with O56. -/

namespace Sys2Proof.Machine

/-! ## The outputs (R142, R148) -/

/-- The measurement unit hears of the valve's closing, if it was open (R107, R142). -/
def Meas.valveShut (valve : Nat) (m : Meas) : Meas :=
  if 0 < valve then { m with valveOpen := false, dryT := none, dry := false } else m

theorem Meas.valveShut_of_open {valve : Nat} (h : 0 < valve) (m : Meas) :
    m.valveShut valve = { m with valveOpen := false, dryT := none, dry := false } := if_pos h

@[simp] theorem Meas.valveShut_jamT (valve : Nat) (m : Meas) : (m.valveShut valve).jamT = m.jamT := by
  unfold Meas.valveShut
  split <;> rfl

@[simp] theorem Meas.valveShut_jam (valve : Nat) (m : Meas) : (m.valveShut valve).jam = m.jam := by
  unfold Meas.valveShut
  split <;> rfl

theorem Blocks.setValve_zero (b : Blocks) :
    b.setValve 0 = { b with saw.valve := 0, meas := b.meas.valveShut b.saw.valve } := by
  unfold Blocks.setValve Meas.valveShut
  rw [if_neg (by simp)]
  by_cases h : 0 < b.saw.valve
  · rw [if_pos ⟨h, rfl⟩, if_pos h]
    rfl
  · rw [if_neg (fun k => h k.1), if_neg h]
    rfl

theorem Blocks.startDrop_eq (b : Blocks) :
    b.startDrop = { b with saw.dropT := if b.saw.waterWanted then some (b.now + 5000) else b.saw.dropT } := by
  unfold Blocks.startDrop
  split <;> rfl

/-! ## The fault (R133, R158) -/

theorem Plan.mirror_of_work {p : Plan} (hrel : p.releasing = false) (hst : p.state ≠ .reclaiming) (st : PlanState) :
    p.mirror st = { p with state := st } := by
  unfold Plan.mirror
  rw [if_neg (by simp [hrel]), if_neg hst]

/-- Of a cut entered and not DONE, the resume cut is that one. -/
theorem Saw.resumeAt_entered {w : Saw} {c : Cut} (hst : w.st ≠ .indexWait) (he : w.entered = true)
    (hc : w.cut? w.cur = some c) (hd : c.done = false) : w.resumeAt = (w.cur, true) := by
  unfold Saw.resumeAt
  rw [if_neg hst, if_pos (by simp [he, hc, hd])]

/-- In INDEX_WAIT it is the next PENDING one, not entered. -/
theorem Saw.resumeAt_indexWait {w : Saw} {n : Nat} (hst : w.st = .indexWait) (hn : w.nextCut = some n) :
    w.resumeAt = (n, false) := by
  unfold Saw.resumeAt
  rw [if_pos hst, hn]
  rfl

/-- The saw stopped by a fault: feed, blade and valve off, its timers stopped, the counts kept (R158). -/
def Saw.stopped (now : Nat) (r : FaultReason) (w : Saw) : Saw :=
  { w with
    feedOn := false, feedRate := 0, pulsePeriod := 0, blade := false, spinT := none, atSpeed := false, valve := 0
    holdT := none, idleSpinT := none, st := .faulted, fault := some r, resumeCut := w.resumeAt.1
    resumeEntered := w.resumeAt.2, dropT := if w.waterWanted then some (now + 5000) else w.dropT }

/-- A fault stops the saw, shuts the valve, is reported to the planner, and is posted (R133, R158). -/
theorem Blocks.sawFault_eq {r : FaultReason} (hr : r ≠ .slabLost) (b : Blocks) :
    b.sawFault r =
      Blocks.post (.planFault r b.saw.cur b.saw.enc)
        { b with
          saw := b.saw.stopped b.now r
          meas := b.meas.valveShut b.saw.valve
          planner.plan := b.planner.plan.map (fun p => { p.mirror .faulted with fault := some r }) } := by
  unfold Blocks.sawFault Blocks.bladeOff
  dsimp only
  rw [if_neg hr, Blocks.setValve_zero, Blocks.startDrop_eq]
  rfl

/-! ## The conditions -/

theorem Blocks.tellJam_of_blade {b : Blocks} (h : b.saw.blade = true) : b.tellJam = b.sawFault .jam := if_pos h

theorem Blocks.tellJam_of_rest {b : Blocks} (h : b.saw.blade = false) : b.tellJam = b := if_neg (by simp [h])

theorem Blocks.tellDry_of_open {b : Blocks} (h : 0 < b.saw.valve) : b.tellDry = b.sawFault .dry := if_pos h

theorem Blocks.tellDry_of_shut {b : Blocks} (h : b.saw.valve = 0) : b.tellDry = b := if_neg (by omega)

theorem Blocks.sawFault_meas {r : FaultReason} (hr : r ≠ .slabLost) (b : Blocks) :
    (b.sawFault r).meas = b.meas.valveShut b.saw.valve := by
  rw [Blocks.sawFault_eq hr, Blocks.post_meas]

/-- A fault with the valve open ends the dry test (R107). -/
theorem Blocks.sawFault_shuts {r : FaultReason} (hr : r ≠ .slabLost) {b : Blocks} (h : 0 < b.saw.valve) :
    (b.sawFault r).meas.dryT = none ∧ (b.sawFault r).meas.dry = false ∧ (b.sawFault r).meas.valveOpen = false := by
  rw [Blocks.sawFault_meas hr, Meas.valveShut_of_open h]
  exact ⟨rfl, rfl, rfl⟩

/-- A timer of the blocks that runs out, by what its act makes of them at the deadline (log 4). -/
theorem State.runBlk_expires {timer : Blocks → Option Nat} {act : Shop → Nat → Blocks → Blocks} {s : State} {d : Nat}
    {b' : Blocks} (ht : timer s.dev.blk = some d) (ha : act s.dev.shop d (s.dev.blk.atDeadline d) = b') :
    s.runBlk (fun sh x => x.onExpiry timer (act sh)) = .next { s with dev.blk := b' } :=
  State.run_onBlk ((Blocks.onExpiry_running ht _).trans ha)

/-- A timer of the blocks that does not run (log 3). -/
theorem State.runBlk_stopped {timer : Blocks → Option Nat} {act : Shop → Nat → Blocks → Blocks} {s : State}
    (ht : timer s.dev.blk = none) : s.runBlk (fun sh x => x.onExpiry timer (act sh)) = .next s :=
  State.run_onBlk_stands (Blocks.onExpiry_stopped ht _)

/-- Settles O56: the state after a fault by `Blocks.sawFault_eq`, then each cause: with the saw at rest its condition alone
stands, and with the saw at work it faults. -/
theorem faultsStopTheSaw : Obligations.FaultsStopTheSaw := by
  intro s b m w faulted
  have faults : ∀ (now : Nat) (meas : Meas) (stop : Bool) (holdT : Option Nat) (r : FaultReason), r ≠ .slabLost →
      faulted now r { s with dev.blk :=
        ({ b with now := now, meas := meas, stop := stop, saw.holdT := holdT } : Blocks).sawFault r } := by
    intro now meas stop holdT r hr
    rw [Blocks.sawFault_eq hr]
    simp only [faulted, Blocks.post_now, Blocks.post_pres, Blocks.post_line, Blocks.post_plant, Blocks.post_cost,
      Blocks.post_asking, Blocks.post_saw, Blocks.post_planner, Saw.stopped, true_and]
    refine ⟨rfl, rfl, rfl, rfl, rfl, fun c hst he hc hd => ?_, fun n hst hn => ?_,
      fun q hq hrel hst => ?_, fun hm hroom => ?_⟩
    · have h := Saw.resumeAt_entered hst he hc hd
      exact ⟨congrArg Prod.fst h, congrArg Prod.snd h⟩
    · have h := Saw.resumeAt_indexWait hst hn
      exact ⟨congrArg Prod.fst h, congrArg Prod.snd h⟩
    · rw [hq, Option.map_some, Plan.mirror_of_work hrel hst]
    · refine Blocks.post_notices ?_ ?_ _
      · exact hm
      · exact hroom
  refine ⟨fun h => State.runBlk_stopped h, fun d hd => ⟨fun hoff => ?_, fun hon => ?_⟩,
    fun h => State.runBlk_stopped h, fun d hd => ⟨fun hshut => ?_, fun hopen => ?_⟩,
    rfl, fun hblade hfeed => ?_, fun hwork => ?_,
    fun h => State.runBlk_stopped h, fun d hd => ⟨fun hheld hwait => ?_, fun hst => ?_⟩⟩
  · exact State.runBlk_expires hd (Blocks.tellJam_of_rest hoff)
  · refine ⟨_, State.runBlk_expires hd (Blocks.tellJam_of_blade hon), faults _ _ _ _ .jam (by decide), ?_⟩
    dsimp only
    rw [Blocks.sawFault_meas (by decide)]
    exact ⟨Meas.valveShut_jamT _ _, Meas.valveShut_jam _ _⟩
  · exact State.runBlk_expires hd (Blocks.tellDry_of_shut hshut)
  · refine ⟨_, State.runBlk_expires hd (Blocks.tellDry_of_open hopen), faults _ _ _ _ .dry (by decide), ?_⟩
    refine Blocks.sawFault_shuts (by decide) ?_
    exact hopen
  · have hrest : (w.blade || w.feedOn) = false := by rw [hblade, hfeed]; rfl
    exact State.run_onBlk (if_neg (fun h => Bool.false_ne_true (hrest.symm.trans h)))
  · have hon : (w.blade || w.feedOn) = true := by simpa using hwork
    refine ⟨_, State.run_onBlk (if_pos hon), faults _ _ _ _ .stop (by decide), ?_⟩
    rw [Blocks.sawFault_eq (by decide)]
    exact Blocks.post_stop _ _
  · exact State.runBlk_expires hd (if_neg (fun h => h.elim hheld hwait))
  · exact ⟨_, State.runBlk_expires hd (if_pos hst), faults _ _ _ _ .water (by decide)⟩

end Sys2Proof.Machine


/-! The comparison of the published value (R113, R114), the flow window (R108, R111, R112), and O54. -/

namespace Sys2Proof.Machine

theorem Blocks.plants_iff (b : Blocks) : b.plants = true ↔ b.pres.role = .plant ∧ b.pres.mem ≠ .inert := by
  simp [Blocks.plants]

/-! ## The comparison, case by case (R113, R114) -/

theorem Blocks.offerBudget_of_offers {b : Blocks} (h : b.pres.mem.offers = true) (v : Nat) :
    b.offerBudget v =
      { b with plant.lastSent := v, line := b.line.offer .plant (mkFrame .budget (bytes2 v)) } := if_pos h

theorem Blocks.mayPublish_of {b : Blocks} {sh : Shop} {x : Band} (hl : live sh b = true) (hst : b.plant.standby = false)
    (hb : b.plant.band = some x) (hx : x ≠ .halt) : b.mayPublish sh = true := by
  simp [Blocks.mayPublish, hl, hst, hb, hx]

theorem Blocks.mayPublish_of_not_live {b : Blocks} {sh : Shop} (h : live sh b = false) : b.mayPublish sh = false := by
  simp [Blocks.mayPublish, h]

theorem Blocks.mayPublish_of_standby {b : Blocks} {sh : Shop} (h : b.plant.standby = true) : b.mayPublish sh = false := by
  simp [Blocks.mayPublish, h]

theorem State.isLive.offers {s : State} (h : s.isLive) : s.dev.blk.pres.mem.offers = true := by
  rw [h.1]
  rfl

theorem Blocks.plantCompare_of_plants {b : Blocks} (h : b.plants = true) (sh : Shop) :
    b.plantCompare sh = b.comparePublished sh := if_pos h

/-- With no BUDGET held, a value that was sent, or that may not be published, stands. -/
theorem Blocks.plantCompare_stands {b : Blocks} {sh : Shop} {v : Nat} (hv : b.plant.published = some v)
    (hh : b.line.heldBudget = none) (h : v = b.plant.lastSent ∨ b.mayPublish sh = false ∨ b.plants = false) :
    b.plantCompare sh = b := by
  unfold Blocks.plantCompare Blocks.comparePublished
  rw [hv, hh]
  rcases h with h | h | h <;> simp [h]

/-- With none held and the spacing timer stopped, another value is offered and the timer starts. -/
theorem Blocks.plantCompare_offers {b : Blocks} {sh : Shop} {v : Nat} (hp : b.plants = true)
    (hv : b.plant.published = some v) (hh : b.line.heldBudget = none) (hne : v ≠ b.plant.lastSent)
    (hmay : b.mayPublish sh = true) (ht : b.plant.spacingT = none) :
    b.plantCompare sh = (b.offerBudget v).startSpacing := by
  rw [Blocks.plantCompare_of_plants hp]
  unfold Blocks.comparePublished
  rw [hv, hh]
  dsimp only
  rw [if_neg (by simp [hne, hmay]), if_pos (by simp [ht])]

theorem Blocks.plantCompare_held {b : Blocks} {sh : Shop} {v : Nat} (hv : b.plant.published = some v)
    (hh : b.line.heldBudget = some v) : b.plantCompare sh = b := by
  unfold Blocks.plantCompare Blocks.comparePublished
  rw [hv, hh]
  simp

/-- A BUDGET held with another value that does not wait is withdrawn alone. -/
theorem Blocks.plantCompare_withdraws {b : Blocks} {sh : Shop} {v w : Nat} (hp : b.plants = true)
    (hv : b.plant.published = some v) (hh : b.line.heldBudget = some w) (hne : w ≠ v)
    (hwait : b.line.heldWaiting .plant isBudget = false) : b.plantCompare sh = b.withdrawBudget := by
  rw [Blocks.plantCompare_of_plants hp]
  unfold Blocks.comparePublished
  rw [hv, hh]
  dsimp only
  rw [if_neg hne, if_neg (by simp [Line.withdrawAnswer, hwait])]

/-- One that waits is withdrawn and replaced, where the published value may be. -/
theorem Blocks.plantCompare_replaced {b : Blocks} {sh : Shop} {v w : Nat} (hp : b.plants = true)
    (hv : b.plant.published = some v) (hh : b.line.heldBudget = some w) (hne : w ≠ v)
    (hwait : b.line.heldWaiting .plant isBudget = true) (hmay : b.withdrawBudget.mayPublish sh = true) :
    b.plantCompare sh = b.withdrawBudget.offerBudget v := by
  rw [Blocks.plantCompare_of_plants hp]
  unfold Blocks.comparePublished
  rw [hv, hh]
  dsimp only
  rw [if_neg hne, if_pos (by simp [Line.withdrawAnswer, hwait, hmay])]

theorem Blocks.offerBudget_startSpacing_plant (v : Nat) (b : Blocks) :
    (b.offerBudget v).startSpacing.plant = { b.plant with lastSent := v, spacingT := some (b.now + 500) } := by
  show { (b.offerBudget v).plant with spacingT := some ((b.offerBudget v).now + 500) } = _
  rw [Blocks.offerBudget_plant, Blocks.offerBudget, Blocks.offer_now]
  rfl

/-- A comparison moves the last sent value and the spacing timer, and nothing else of the plant unit. -/
theorem Blocks.plantCompare_plant_eq (sh : Shop) (b : Blocks) :
    (b.plantCompare sh).plant =
      { b.plant with
        lastSent := (b.plantCompare sh).plant.lastSent, spacingT := (b.plantCompare sh).plant.spacingT } := by
  unfold Blocks.plantCompare Blocks.comparePublished
  dsimp only
  repeat' split
  case h_1.isFalse.isTrue => rw [Blocks.offerBudget_plant]; rfl
  case h_2.isFalse.isTrue => rw [Blocks.offerBudget_startSpacing_plant]
  all_goals rfl

/-! ## The published value worked out afresh (R112) -/

theorem Blocks.republish_plant_eq (sh : Shop) (b : Blocks) :
    (b.republish sh).plant =
      { b.plant with
        published := publishedOf b.plant.band b.plant.turbid b.plant.correction
        lastSent := (b.republish sh).plant.lastSent, spacingT := (b.republish sh).plant.spacingT } := by
  unfold Blocks.republish
  dsimp only
  split
  · rfl
  · rw [Blocks.plantCompare_plant_eq]
    rfl

theorem Blocks.QueueMoved.republish {a b : Blocks} (h : a.QueueMoved b) (sh : Shop) : a.QueueMoved (b.republish sh) := by
  unfold Blocks.republish
  dsimp only
  split
  · exact h.onPlant _
  · exact (h.onPlant _).plantCompare sh

/-! ## The under count (R112) -/

namespace PlantUnit

variable {flow : Nat} {p : PlantUnit}

theorem under_of_none (h : p.correction = none) : p.under flow = p := by
  unfold under
  rw [h]
  rfl

theorem under_above (h : p.correction ≠ none) (hflow : ¬ flow ≤ p.published.getD 0) :
    p.under flow = { p with underCount := 0 } := by
  unfold under
  rw [if_neg (by simpa using h), if_neg hflow]

theorem under_counts (h : p.correction ≠ none) (hflow : flow ≤ p.published.getD 0) (hn : p.underCount < 9) :
    p.under flow = { p with underCount := p.underCount + 1 } := by
  unfold under
  rw [if_neg (by simpa using h), if_pos hflow, if_pos hn]

theorem under_tenth (h : p.correction ≠ none) (hflow : flow ≤ p.published.getD 0) (hn : 9 ≤ p.underCount) :
    p.under flow = { p with underCount := 0, correction := none } := by
  unfold under
  rw [if_neg (by simpa using h), if_pos hflow, if_neg (by omega)]

/-- The under count's work leaves all but itself and the correction. -/
theorem under_eq (flow : Nat) (p : PlantUnit) :
    p.under flow = { p with underCount := (p.under flow).underCount, correction := (p.under flow).correction } := by
  unfold under
  repeat' split
  all_goals rfl

/-! ## The overdraw test (R111) -/

theorem overdraw_of_no_band (h : p.band = none) : p.overdraw flow = { p with overCount := 0, underCount := 0 } := by
  unfold overdraw
  rw [h]

theorem overdraw_within {x : Band} (hb : p.band = some x) (h : ¬ p.lastSent * 6 < flow * 5) :
    p.overdraw flow = { p with overCount := 0 } := by
  unfold overdraw
  rw [hb]
  exact if_pos (by omega)

theorem overdraw_counts {x : Band} (hb : p.band = some x) (h : p.lastSent * 6 < flow * 5) (hn : p.overCount < 4) :
    p.overdraw flow = { p with overCount := p.overCount + 1 } := by
  unfold overdraw
  rw [hb]
  exact (if_neg (by omega)).trans (if_pos hn)

/-- The fifth window over in a row sets the correction to the excess, or ends it where there is none. -/
theorem overdraw_fifth {x : Band} (hb : p.band = some x) (h : p.lastSent * 6 < flow * 5) (hn : 4 ≤ p.overCount) :
    p.overdraw flow =
      { p with
        overCount := 0
        correction := if budgetAfter x p.turbid < flow then some (flow - budgetAfter x p.turbid) else none
        underCount := if budgetAfter x p.turbid < flow then 0 else p.underCount } := by
  unfold overdraw
  rw [hb]
  dsimp only
  rw [if_neg (by omega), if_neg (by omega)]
  by_cases hx : budgetAfter x p.turbid < flow
  · rw [if_pos (by omega), if_pos hx, if_pos hx]
  · rw [if_neg (by omega), if_neg hx, if_neg hx]

/-- Short of the fifth the test moves the over count alone. -/
theorem overdraw_eq_of_not_fifth {x : Band} (hb : p.band = some x)
    (h : ¬ (p.lastSent * 6 < flow * 5 ∧ 4 ≤ p.overCount)) :
    p.overdraw flow = { p with overCount := (p.overdraw flow).overCount } := by
  by_cases hover : p.lastSent * 6 < flow * 5
  · rw [overdraw_counts hb hover (by omega)]
  · rw [overdraw_within hb hover]

theorem overdraw_tank (flow : Nat) (p : PlantUnit) :
    (p.overdraw flow).band = p.band ∧ (p.overdraw flow).turbid = p.turbid := by
  unfold overdraw
  dsimp only
  repeat' split
  all_goals exact ⟨rfl, rfl⟩

/-! ## A window's end (R108, R111, R112, log 34) -/

/-- The plant unit after a window: the under count first, and then the overdraw test. -/
def windowed (flow : Nat) (p : PlantUnit) : PlantUnit := (p.under flow).overdraw flow

theorem windowed_tank (flow : Nat) (p : PlantUnit) :
    (p.windowed flow).band = p.band ∧ (p.windowed flow).turbid = p.turbid := by
  obtain ⟨hband, hturbid⟩ := (p.under flow).overdraw_tank flow
  rw [windowed, hband, hturbid, under_eq]
  exact ⟨rfl, rfl⟩

theorem windowed_of_no_band (h : p.band = none) :
    p.windowed flow = { p.under flow with overCount := 0, underCount := 0 } :=
  overdraw_of_no_band (by rw [under_eq]; exact h)

theorem windowed_within {x : Band} (hb : p.band = some x) (h : ¬ p.lastSent * 6 < flow * 5) :
    p.windowed flow = { p.under flow with overCount := 0 } :=
  overdraw_within (by rw [under_eq]; exact hb) (by rw [under_eq]; exact h)

theorem windowed_counts {x : Band} (hb : p.band = some x) (h : p.lastSent * 6 < flow * 5) (hn : p.overCount < 4) :
    p.windowed flow = { p.under flow with overCount := p.overCount + 1 } := by
  have hover : (p.under flow).overCount = p.overCount := by rw [under_eq]
  rw [← hover] at hn ⊢
  exact overdraw_counts (by rw [under_eq]; exact hb) (by rw [under_eq]; exact h) hn

theorem windowed_fifth {x : Band} (hb : p.band = some x) (h : p.lastSent * 6 < flow * 5 ∧ 4 ≤ p.overCount) :
    p.windowed flow =
      { p.under flow with
        overCount := 0
        correction := if budgetAfter x p.turbid < flow then some (flow - budgetAfter x p.turbid) else none
        underCount := if budgetAfter x p.turbid < flow then 0 else (p.under flow).underCount } := by
  have hturbid : (p.under flow).turbid = p.turbid := by rw [under_eq]
  rw [← hturbid]
  exact overdraw_fifth (by rw [under_eq]; exact hb) (by rw [under_eq]; exact h.1) (by rw [under_eq]; exact h.2)

/-- Short of the fifth window over, the under count and the correction are those of the under count's work. -/
theorem windowed_under {x : Band} (hb : p.band = some x) (h : ¬ (p.lastSent * 6 < flow * 5 ∧ 4 ≤ p.overCount)) :
    (p.windowed flow).underCount = (p.under flow).underCount ∧
      (p.windowed flow).correction = (p.under flow).correction := by
  have heq : p.windowed flow = { p.under flow with overCount := (p.windowed flow).overCount } :=
    overdraw_eq_of_not_fifth (by rw [under_eq]; exact hb) (by rw [under_eq]; exact h)
  rw [heq]
  exact ⟨rfl, rfl⟩

end PlantUnit

theorem Blocks.plantWindow_plant_eq (flow : Nat) (sh : Shop) (b : Blocks) :
    (b.plantWindow flow sh).plant =
      { b.plant.windowed flow with
        published := publishedOf b.plant.band b.plant.turbid (b.plant.windowed flow).correction
        lastSent := (b.plantWindow flow sh).plant.lastSent, spacingT := (b.plantWindow flow sh).plant.spacingT } := by
  obtain ⟨hband, hturbid⟩ := b.plant.windowed_tank flow
  rw [← hband, ← hturbid]
  exact Blocks.republish_plant_eq sh (b.onPlant (PlantUnit.windowed flow))

theorem Blocks.plantWindow_overCount (flow : Nat) (sh : Shop) (b : Blocks) :
    (b.plantWindow flow sh).plant.overCount = (b.plant.windowed flow).overCount := by
  rw [Blocks.plantWindow_plant_eq]

theorem Blocks.plantWindow_underCount (flow : Nat) (sh : Shop) (b : Blocks) :
    (b.plantWindow flow sh).plant.underCount = (b.plant.windowed flow).underCount := by
  rw [Blocks.plantWindow_plant_eq]

theorem Blocks.plantWindow_correction (flow : Nat) (sh : Shop) (b : Blocks) :
    (b.plantWindow flow sh).plant.correction = (b.plant.windowed flow).correction := by
  rw [Blocks.plantWindow_plant_eq]

/-- Short of the fifth window over, the plant unit's under count and correction are as the under count's work left them. -/
theorem Blocks.plantWindow_under {flow : Nat} {b : Blocks} {x : Band} {q : PlantUnit} (hb : b.plant.band = some x)
    (h : ¬ (b.plant.lastSent * 6 < flow * 5 ∧ 4 ≤ b.plant.overCount)) (hq : b.plant.under flow = q) (sh : Shop) :
    (b.plantWindow flow sh).plant.underCount = q.underCount ∧
      (b.plantWindow flow sh).plant.correction = q.correction := by
  rw [Blocks.plantWindow_underCount, Blocks.plantWindow_correction, ← hq]
  exact PlantUnit.windowed_under hb h

theorem Blocks.QueueMoved.plantWindow {a b : Blocks} (h : a.QueueMoved b) (flow : Nat) (sh : Shop) :
    a.QueueMoved (b.plantWindow flow sh) := (h.onPlant _).republish sh

theorem Blocks.QueueMoved.meas {a b : Blocks} (h : a.QueueMoved b) : b.meas = a.meas := by rw [h.rest]

theorem Blocks.QueueMoved.now {a b : Blocks} (h : a.QueueMoved b) : b.now = a.now := by rw [h.rest]

/-- The spacing timer has run out (R113). -/
def Blocks.spacingEnded (d : Nat) (b : Blocks) : Blocks := { b with now := max b.now d, plant.spacingT := none }

/-- A comparison follows (R113, log 4). -/
theorem exec_spacingTimerExpiry {s : State} {d : Nat} {c : Blocks} (hd : s.dev.blk.plant.spacingT = some d)
    (hc : (s.dev.blk.spacingEnded d).plantCompare s.dev.shop = c) :
    exec .spacingTimerExpiry s = .next { s with dev.blk := c } :=
  State.run_onBlk ((Blocks.onExpiry_running hd _).trans hc)

/-- Settles O54: a window's end by `PlantUnit.windowed` and its cases, the spacing timer by the cases of the comparison. -/
theorem flowWindowsAndTheSpacingTimer : Obligations.FlowWindowsAndTheSpacingTimer := by
  intro s b m u flow works
  have hworks : works ↔ b.plants = true := b.plants_iff.symm
  refine ⟨fun hw => ?_, fun hw => ?_, fun h => ?_, ?_, fun h => ?_,
    fun d v hd hv hheld => ⟨fun h => ?_, fun hne hl hst hw hband => ?_⟩, ?_⟩
  · exact State.run_onBlk (if_pos (hworks.mp hw))
  · exact State.run_onBlk_stands (if_neg (fun h => hw (hworks.mpr h)))
  · exact State.runBlk_stopped h
  · intro d hd ended
    refine ⟨fun hw => ?_, fun hw => ?_⟩
    · exact State.run_onBlk ((Blocks.onExpiry_running hd _).trans (if_neg (fun h => hw (hworks.mpr h))))
    have hexec : exec .flowWindowEnd s =
        .next { ended with dev.blk := ended.dev.blk.plantWindow flow s.dev.shop } :=
      State.run_onBlk ((Blocks.onExpiry_running hd _).trans (if_pos (hworks.mp hw)))
    refine ⟨_, hexec, ?_⟩
    have hmoved := (Blocks.QueueMoved.refl ended.dev.blk).plantWindow flow s.dev.shop
    have hplant := ended.dev.blk.plantWindow_plant_eq flow s.dev.shop
    have hover := ended.dev.blk.plantWindow_overCount flow s.dev.shop
    have hunder := ended.dev.blk.plantWindow_underCount flow s.dev.shop
    have hcorrection := ended.dev.blk.plantWindow_correction flow s.dev.shop
    have htank := u.windowed_tank flow
    refine ⟨hmoved.meas, hmoved.now, rfl, hmoved.pres,
      (congrArg PlantUnit.band hplant).trans htank.1, (congrArg PlantUnit.turbid hplant).trans htank.2, ?_, ?_, ?_⟩
    · exact (congrArg PlantUnit.published hplant).trans (congrArg (publishedOf _ _) hcorrection.symm)
    · intro hnone
      have hcounts := PlantUnit.windowed_of_no_band (flow := flow) hnone
      exact ⟨hover.trans (congrArg PlantUnit.overCount hcounts), hunder.trans (congrArg PlantUnit.underCount hcounts)⟩
    intro x hx isOver fifth isUnder
    have hisUnder : isUnder ↔ u.correction ≠ none ∧ flow ≤ u.published.getD 0 := by
      simp only [isUnder]
      cases u.published <;> rfl
    have short : ¬ fifth → ∀ {q : PlantUnit}, u.under flow = q → _ := fun hf _ hq =>
      Blocks.plantWindow_under (b := ended.dev.blk) hx hf hq s.dev.shop
    refine ⟨fun hno => ?_, fun ho hn => ?_, fun hf => ?_,
      fun hf hu hn => short hf (PlantUnit.under_counts hu.1 (hisUnder.mp hu).2 hn),
      fun hf hu hn => short hf (PlantUnit.under_tenth hu.1 (hisUnder.mp hu).2 hn),
      fun hf hc hu => short hf (PlantUnit.under_above hc (fun h => hu (hisUnder.mpr ⟨hc, h⟩))),
      fun hf hc => (short hf (PlantUnit.under_of_none hc)).2.trans hc⟩
    · exact hover.trans (congrArg PlantUnit.overCount (PlantUnit.windowed_within hx hno))
    · exact hover.trans (congrArg PlantUnit.overCount (PlantUnit.windowed_counts hx ho hn))
    · have hfifth := PlantUnit.windowed_fifth hx hf
      exact ⟨hover.trans (congrArg PlantUnit.overCount hfifth),
        hcorrection.trans (congrArg PlantUnit.correction hfifth),
        fun hexcess => hunder.trans ((congrArg PlantUnit.underCount hfifth).trans (if_pos hexcess))⟩
  · exact State.runBlk_stopped h
  · refine exec_spacingTimerExpiry hd (Blocks.plantCompare_stands (b := b.spacingEnded d) hv hheld ?_)
    rcases h with h | h | h | h
    · exact Or.inl h
    · exact Or.inr (Or.inl (Blocks.mayPublish_of_not_live (Bool.not_eq_true _ ▸ fun k => h ((live_iff s).mp k))))
    · exact Or.inr (Or.inl (Blocks.mayPublish_of_standby h))
    · exact Or.inr (Or.inr (Bool.not_eq_true _ ▸ fun k => h (hworks.mpr k)))
  · obtain ⟨x, hx, hnhalt⟩ := hband
    have hmay : (b.spacingEnded d).mayPublish s.dev.shop = true :=
      Blocks.mayPublish_of ((live_iff s).mpr hl) hst hx hnhalt
    exact exec_spacingTimerExpiry hd
      ((Blocks.plantCompare_offers (b := b.spacingEnded d) (hworks.mp hw) hv hheld hne hmay rfl).trans
        (congrArg Blocks.startSpacing (Blocks.offerBudget_of_offers (b := b.spacingEnded d) (State.isLive.offers hl) v)))
  · intro d v w hd hv hheld hw expired
    have hp : (b.spacingEnded d).plants = true := hworks.mp hw
    refine ⟨fun h => ?_, fun hne hwait => ?_, fun hne hwait hl hst hband => ?_⟩
    · exact exec_spacingTimerExpiry hd (Blocks.plantCompare_held hv (h ▸ hheld))
    · exact exec_spacingTimerExpiry hd (Blocks.plantCompare_withdraws hp hv hheld hne hwait)
    · obtain ⟨x, hx, hnhalt⟩ := hband
      have hmay : (b.spacingEnded d).withdrawBudget.mayPublish s.dev.shop = true :=
        Blocks.mayPublish_of ((live_iff s).mpr hl) hst hx hnhalt
      exact exec_spacingTimerExpiry hd ((Blocks.plantCompare_replaced hp hv hheld hne hwait hmay).trans
        (Blocks.offerBudget_of_offers (b := (b.spacingEnded d).withdrawBudget) (State.isLive.offers hl) v))

end Sys2Proof.Machine


/-! The scan (R103, R104), the cutter's tests (R105 to R107), the plant's scan with the HALT break (R21, R109, R115), and
O52. -/

namespace Sys2Proof.Machine

/-! ## A reading (R103, R104) -/

theorem Scan.ends_iff (v : Nat) (x : Scan) :
    x.ends v = true ↔ (∃ l, x.last = some l ∧ v ≤ l + 8 ∧ l ≤ v + 8) ∨ 31 ≤ x.readings := by
  unfold Scan.ends settled8
  cases x.last with
  | none => simp
  | some l => simp

/-- A sample trigger starts a scan, or counts one that is missed (R103). -/
theorem Meas.trigger_eq (m : Meas) :
    m.trigger =
      { m with
        scan := if m.scan = none then some Scan.fresh else m.scan
        missed := if m.scan = none then m.missed else min 65535 (m.missed + 1) } := by
  unfold Meas.trigger
  by_cases h : m.scan = none
  · rw [if_neg (by simp [h]), if_pos h, if_pos h]
  · rw [if_pos (Option.isSome_iff_ne_none.mpr h), if_neg h, if_neg h]

theorem Meas.reading_idle {m : Meas} (h : m.scan = none) (v : Nat) : m.reading v = (m, false) := by
  unfold Meas.reading
  rw [h]

/-- A conversion goes on. -/
theorem Meas.reading_more {m : Meas} {x : Scan} {v : Nat} (h : m.scan = some x) (he : ¬ x.ends v = true) :
    m.reading v = ({ m with scan := some { x with readings := x.readings + 1, last := some v } }, false) := by
  unfold Meas.reading
  rw [h]
  exact if_neg he

/-- The first input's conversion ends, and the second's begins. -/
theorem Meas.reading_first {m : Meas} {x : Scan} {v : Nat} (h : m.scan = some x) (he : x.ends v = true)
    (hx : x.maResult = none) :
    m.reading v = ({ m with scan := some { maResult := some v, readings := 0, last := none } }, false) := by
  unfold Meas.reading
  rw [h]
  dsimp only
  rw [if_pos he, hx]

/-- The second input's conversion ends the scan. -/
theorem Meas.reading_second {m : Meas} {x : Scan} {v a : Nat} (h : m.scan = some x) (he : x.ends v = true)
    (hx : x.maResult = some a) : m.reading v = (m.complete a v, true) := by
  unfold Meas.reading
  rw [h]
  dsimp only
  rw [if_pos he, hx]

theorem filtered_of_few {l : List Nat} (h : l.length < 4) : filtered l = none := by
  unfold filtered
  split
  · simp at h
  · rfl

theorem Meas.filteredBoth_of_few {m : Meas} (h : m.maHist.length < 4) : m.filteredBoth = none := by
  unfold Meas.filteredBoth
  rw [filtered_of_few h]

theorem Meas.filteredBoth_of_four {m : Meas} {a1 a2 a3 a4 b1 b2 b3 b4 : Nat} (ha : m.maHist = [a1, a2, a3, a4])
    (hb : m.mbHist = [b1, b2, b3, b4]) :
    m.filteredBoth = some ((a1 + a2 + a3 + a4) / 4, (b1 + b2 + b3 + b4) / 4) := by
  unfold Meas.filteredBoth
  rw [ha, hb]
  rfl

/-! ## What follows a reading -/

theorem Blocks.analog_of_open {b : Blocks} {m : Meas} {v : Nat} (h : b.meas.reading v = (m, false)) (sh : Shop) :
    b.analog v sh = { b with meas := m } := by
  unfold Blocks.analog
  rw [h]
  exact if_neg Bool.false_ne_true

/-- A completed scan with too few results for the filtered values. -/
theorem Blocks.analog_of_few {b : Blocks} {m : Meas} {v : Nat} (h : b.meas.reading v = (m, true))
    (hf : m.filteredBoth = none) (sh : Shop) : b.analog v sh = { b with meas := m } := by
  unfold Blocks.analog
  rw [h]
  dsimp only
  rw [if_pos rfl, hf]

/-- A completed scan with both filtered values goes to the block that the station's role has at work. -/
theorem Blocks.analog_of_filtered {b : Blocks} {m : Meas} {v fa fb : Nat} (h : b.meas.reading v = (m, true))
    (hf : m.filteredBoth = some (fa, fb)) (sh : Shop) :
    b.analog v sh =
      if b.saws then ({ b with meas := m } : Blocks).cutterScan fa fb
      else if b.plants then ({ b with meas := m } : Blocks).plantScan fa fb sh else { b with meas := m } := by
  unfold Blocks.analog
  rw [h]
  dsimp only
  rw [if_pos rfl, hf]
  rfl

/-! ## The cutter's tests (R105 to R107) -/

theorem Blocks.rateNow_eq (b : Blocks) :
    b.rateNow =
      match b.saw.plan with
      | none => 0
      | some p => feedRate p.baseFeed p.need b.saw.grant b.meas.derate := by
  unfold Blocks.rateNow
  cases b.saw.plan <;> rfl

theorem Blocks.tellDerate_eq (b : Blocks) :
    b.tellDerate = { b with saw.feedRate := if b.saw.st = .cutting then b.rateNow else b.saw.feedRate } := by
  unfold Blocks.tellDerate
  split <;> rfl

/-- The derate flag follows the load, and a feed rate that runs follows the flag (R105, R152). -/
theorem Blocks.testLoad_eq (ma : Nat) (b : Blocks) :
    b.testLoad ma =
      { b with
        meas.derate := decide (700 < ma)
        saw.feedRate :=
          if b.saw.st = .cutting ∧ b.meas.derate ≠ decide (700 < ma) then
            (b.onMeas (fun m => { m with derate := decide (700 < ma) })).rateNow
          else b.saw.feedRate } := by
  unfold Blocks.testLoad
  dsimp only
  by_cases h : decide (700 < ma) = b.meas.derate
  · rw [if_pos h, if_neg (fun k => k.2 h.symm), h]
  · rw [if_neg h, Blocks.tellDerate_eq, if_congr (and_iff_left (Ne.symm h)) rfl rfl]
    rfl

theorem Blocks.testJam_eq (ma : Nat) (b : Blocks) :
    b.testJam ma =
      { b with
        meas.jamT := if ma ≤ 900 then none
          else if b.meas.jamT = none ∧ b.meas.jam = false then some (b.now + 500) else b.meas.jamT
        meas.jam := if ma ≤ 900 then false else b.meas.jam } := by
  unfold Blocks.testJam
  by_cases h : ma ≤ 900
  · rw [if_neg (by omega), if_pos h, if_pos h]
    rfl
  · rw [if_pos (by omega), if_neg h, if_neg h]
    by_cases hj : b.meas.jamT = none ∧ b.meas.jam = false
    · rw [if_pos (by simp [hj]), if_pos hj]
      rfl
    · rw [if_neg (by simpa using hj), if_neg hj]

theorem Blocks.testDry_eq (mb : Nat) (b : Blocks) :
    b.testDry mb =
      { b with
        meas.dryT := if 120 ≤ mb then none
          else if b.meas.valveOpen = true ∧ b.meas.dryT = none ∧ b.meas.dry = false then some (b.now + 2000)
          else b.meas.dryT
        meas.dry := if 120 ≤ mb then false else b.meas.dry } := by
  unfold Blocks.testDry
  by_cases h : 120 ≤ mb
  · rw [if_pos h, if_pos h, if_pos h]
    rfl
  · rw [if_neg h, if_neg h, if_neg h]
    by_cases hd : b.meas.valveOpen = true ∧ b.meas.dryT = none ∧ b.meas.dry = false
    · rw [if_pos (by simp [hd]), if_pos hd]
      rfl
    · rw [if_neg (by simpa [and_assoc] using hd), if_neg hd]

/-- The three tests of a completed scan at the cutter, with both filtered values (6.2). -/
theorem Blocks.cutterScan_eq (ma mb : Nat) (b : Blocks) :
    b.cutterScan ma mb =
      { b with
        meas :=
          { b.meas with
            derate := decide (700 < ma)
            jamT := if ma ≤ 900 then none
              else if b.meas.jamT = none ∧ b.meas.jam = false then some (b.now + 500) else b.meas.jamT
            jam := if ma ≤ 900 then false else b.meas.jam
            dryT := if 120 ≤ mb then none
              else if b.meas.valveOpen = true ∧ b.meas.dryT = none ∧ b.meas.dry = false then some (b.now + 2000)
              else b.meas.dryT
            dry := if 120 ≤ mb then false else b.meas.dry }
        saw.feedRate :=
          if b.saw.st = .cutting ∧ b.meas.derate ≠ decide (700 < ma) then
            (b.onMeas (fun m => { m with derate := decide (700 < ma) })).rateNow
          else b.saw.feedRate } := by
  unfold Blocks.cutterScan
  rw [Blocks.testDry_eq, Blocks.testJam_eq, Blocks.testLoad_eq]

/-! ## The HALT break (R21) -/

/-- The plant unit with its tank in HALT and nothing sent compares nothing it does not hold (R113, R115). -/
theorem Blocks.plantCompare_halt {b : Blocks} {sh : Shop} (hb : b.plant.band = some .halt) (hs : b.plant.lastSent = 0)
    (hh : b.line.heldBudget = none) : b.plantCompare sh = b := by
  cases hv : b.plant.published with
  | none =>
    unfold Blocks.plantCompare Blocks.comparePublished
    rw [hv]
    exact ite_self b
  | some v =>
    exact Blocks.plantCompare_stands hv hh (Or.inr (Or.inl (by simp [Blocks.mayPublish, Blocks.aim, hb, hs, hh])))

/-- In HALT with nothing sent, what follows a failed attempt leaves the plant unit (R115). -/
theorem Blocks.afterAttempt_halt_plant {b : Blocks} (hb : b.plant.band = some .halt) (hs : b.plant.lastSent = 0)
    (h0 : b.line.emissions = 0) (a : Attempt) (e : OutEntry) (sh : Shop) : (b.afterAttempt a e sh).plant = b.plant := by
  have hheld : (b.withdraw .plant isBudget).line.heldBudget = none := Line.heldBudget_none (Line.withdraw_frames h0)
  unfold Blocks.afterAttempt
  split
  · split
    · exact ((Moves.refl false b).refreshStream sh).plant rfl
    · rfl
  · split <;> rfl
  · split
    · rw [Blocks.plantCompare_halt (b := b.withdraw .plant isBudget) hb hs hheld]
      rfl
    · next hagain =>
      have hkept : e.again = false := by simpa [hb] using hagain
      rw [if_neg (by simp [hkept])]
  all_goals rfl

theorem Blocks.attemptEnds_halt_plant {b : Blocks} (hb : b.plant.band = some .halt) (hs : b.plant.lastSent = 0)
    (a : Attempt) (sh : Shop) : (b.attemptEnds a sh).plant = b.plant := by
  cases he : b.line.emitting with
  | none => rw [Blocks.attemptEnds_none he]
  | some e =>
    have hf := b.attemptFailed_failed a
    rw [Blocks.attemptEnds_some he,
      Blocks.afterAttempt_halt_plant (by rw [hf.plant, hb]) (by rw [hf.plant, hs]) hf.emissions, hf.plant]

theorem Blocks.attemptFailed_halting (a : Attempt) (b : Blocks) : (b.attemptFailed a).line.halting = b.line.halting := by
  unfold Blocks.attemptFailed Blocks.sendFailed
  repeat' split
  · rfl
  · rfl
  · rw [Blocks.post_line]
    rfl

theorem Blocks.attemptEnds_halting (a : Attempt) (sh : Shop) (b : Blocks) :
    (b.attemptEnds a sh).line.halting = b.line.halting := by
  cases he : b.line.emitting with
  | none => rw [Blocks.attemptEnds_none he]
  | some e =>
    rw [Blocks.attemptEnds_some he, ((Blocks.QueueMoved.refl _).afterAttempt a e sh).wire.halting,
      Blocks.attemptFailed_halting]

/-- What a scan at the plant and the HALT break leave alone: all but the line, the plant unit, the stream and the notices. -/
structure Blocks.PlantActed (b c : Blocks) : Prop where
  rest : c = { b with line := c.line, plant := c.plant, asking := c.asking, host := c.host }
  rejoin : c.host.rejoinPending = b.host.rejoinPending

theorem Blocks.PlantActed.refl (b : Blocks) : b.PlantActed b := ⟨rfl, rfl⟩

theorem Blocks.PlantActed.trans {a b c : Blocks} (h : a.PlantActed b) (k : b.PlantActed c) : a.PlantActed c := by
  refine ⟨?_, k.rejoin.trans h.rejoin⟩
  rw [k.rest, h.rest]

theorem Blocks.QueueMoved.plantActed {b c : Blocks} (h : b.QueueMoved c) : b.PlantActed c := by
  refine ⟨?_, by rw [h.host]⟩
  rw [h.rest]

theorem Blocks.attemptEnds_plantActed (a : Attempt) (sh : Shop) (b : Blocks) : b.PlantActed (b.attemptEnds a sh) := by
  cases he : b.line.emitting with
  | none =>
    rw [Blocks.attemptEnds_none he]
    exact Blocks.PlantActed.refl b
  | some e =>
    have hf := b.attemptFailed_failed a
    have hfailed : b.PlantActed (b.attemptFailed a) := ⟨by rw [hf.rest], hf.rejoin⟩
    rw [Blocks.attemptEnds_some he]
    exact hfailed.trans ((Blocks.QueueMoved.refl _).afterAttempt a e sh).plantActed

namespace Blocks.PlantActed

variable {b c : Blocks}

theorem meas (h : b.PlantActed c) : c.meas = b.meas := by rw [h.rest]

theorem pres (h : b.PlantActed c) : c.pres = b.pres := by rw [h.rest]

theorem saw (h : b.PlantActed c) : c.saw = b.saw := by rw [h.rest]

end Blocks.PlantActed

/-- The HALT break is dropped, or the line halts and the emission ends (R21). -/
theorem Blocks.haltBreak_cases (sh : Shop) (b : Blocks) :
    b.haltBreak sh = b ∨
      b.haltBreak sh = (b.onLine (fun l => { l with halting := true, idle := false })).attemptEnds .broke sh := by
  unfold Blocks.haltBreak
  split
  · exact Or.inl rfl
  · exact Or.inl rfl
  · exact Or.inl rfl
  all_goals
    split
    · exact Or.inl rfl
    · exact Or.inr rfl

/-- A station on the line that has left its listen window halts, once (R21). -/
theorem Blocks.haltBreak_halts {b : Blocks} (hi : b.pres.mem ≠ .inert) (hm : b.pres.mem ≠ .mute)
    (hl : b.pres.mem ≠ .outside .listen) (sh : Shop) :
    (b.haltBreak sh).line.halting = true ∧ (b.line.halting = false → (b.haltBreak sh).line.emissions = 0) := by
  unfold Blocks.haltBreak
  split
  · next h => exact absurd h hi
  · next h => exact absurd h hm
  · next h => exact absurd h hl
  all_goals
    split
    · next h => exact ⟨h, fun k => absurd (h.symm.trans k) (by decide)⟩
    · exact ⟨Blocks.attemptEnds_halting _ _ _, fun _ => Blocks.attemptEnds_emissions _ _ _⟩

/-- HALT is entered: nothing counts as sent, the HALT break is asked for, and the BUDGET held is withdrawn (R115). -/
def Blocks.haltEntered (sh : Shop) (b : Blocks) : Blocks :=
  ((b.onPlant (fun p => { p with lastSent := 0 })).haltBreak sh).withdrawBudget

theorem Blocks.haltEntered_plant {b : Blocks} (hb : b.plant.band = some .halt) (sh : Shop) :
    (b.haltEntered sh).plant = { b.plant with lastSent := 0 } := by
  unfold Blocks.haltEntered
  rw [Blocks.withdrawBudget_plant]
  rcases Blocks.haltBreak_cases sh (b.onPlant (fun p => { p with lastSent := 0 })) with h | h <;> rw [h]
  · rfl
  · rw [Blocks.attemptEnds_halt_plant]
    · rfl
    · exact hb
    · rfl

theorem Blocks.withdrawBudget_queueMoved (b : Blocks) : b.QueueMoved b.withdrawBudget :=
  (Blocks.QueueMoved.refl b).withdrawn .plant isBudget true

theorem Blocks.haltEntered_plantActed (sh : Shop) (b : Blocks) : b.PlantActed (b.haltEntered sh) := by
  refine Blocks.PlantActed.trans ?_ (Blocks.withdrawBudget_queueMoved _).plantActed
  rcases Blocks.haltBreak_cases sh (b.onPlant (fun p => { p with lastSent := 0 })) with h | h <;> rw [h]
  · exact ⟨rfl, rfl⟩
  · have hhalting : b.PlantActed ((b.onPlant (fun p => { p with lastSent := 0 })).onLine
        (fun l => { l with halting := true, idle := false })) := ⟨rfl, rfl⟩
    exact hhalting.trans (Blocks.attemptEnds_plantActed _ _ _)

theorem Blocks.haltEntered_halts {b : Blocks} (hi : b.pres.mem ≠ .inert) (hm : b.pres.mem ≠ .mute)
    (hl : b.pres.mem ≠ .outside .listen) (sh : Shop) :
    (b.haltEntered sh).line.halting = true ∧ (b.line.halting = false → (b.haltEntered sh).line.emissions = 0) := by
  have hbreak := Blocks.haltBreak_halts (b := b.onPlant (fun p => { p with lastSent := 0 })) hi hm hl sh
  have hmoved := Blocks.withdrawBudget_queueMoved ((b.onPlant (fun p => { p with lastSent := 0 })).haltBreak sh)
  exact ⟨hmoved.wire.halting.trans hbreak.1, fun h => hmoved.emissions.trans (hbreak.2 h)⟩

/-! ## The plant's scan (R109, R110, R112, R115) -/

/-- A comparison leaves the last sent value, or sends the published one (R113, R114). -/
theorem Blocks.plantCompare_lastSent (sh : Shop) (b : Blocks) :
    (b.plantCompare sh).plant.lastSent = b.plant.lastSent ∨
      some (b.plantCompare sh).plant.lastSent = b.plant.published := by
  unfold Blocks.plantCompare Blocks.comparePublished
  dsimp only
  repeat' split
  case h_1.isFalse.isTrue hv _ _ _ _ _ => exact Or.inr (by rw [Blocks.offerBudget_plant, hv])
  case h_2.isFalse.isTrue hv _ _ _ _ => exact Or.inr (by rw [Blocks.offerBudget_startSpacing_plant, hv])
  all_goals exact Or.inl rfl

theorem Blocks.republish_lastSent (sh : Shop) (b : Blocks) :
    (b.republish sh).plant.lastSent = b.plant.lastSent ∨
      some (b.republish sh).plant.lastSent = publishedOf b.plant.band b.plant.turbid b.plant.correction := by
  unfold Blocks.republish
  dsimp only
  split
  · exact Or.inl rfl
  · exact Blocks.plantCompare_lastSent sh (b.onPlant _)

/-- The clean tank's band and the turbidity flag are read (R109, R110). -/
def Blocks.tankRead (ma mb : Nat) (b : Blocks) : Blocks :=
  b.onPlant (fun p => { p with band := some (bandAfter b.plant.band (levelOf ma)), turbid := decide (600 < mb) })

theorem Blocks.plantScan_of_entry {b : Blocks} {ma : Nat} (hband : bandAfter b.plant.band (levelOf ma) = .halt)
    (hold : b.plant.band ≠ some .halt) (hst : b.plant.standby = false) (mb : Nat) (sh : Shop) :
    b.plantScan ma mb sh = ((b.tankRead ma mb).haltEntered sh).republish sh := by
  unfold Blocks.plantScan
  dsimp only
  rw [if_pos ⟨hband, hold, by simp [hst]⟩]
  rfl

theorem Blocks.plantScan_of_no_entry {b : Blocks} {ma : Nat}
    (h : ¬ (bandAfter b.plant.band (levelOf ma) = .halt ∧ b.plant.band ≠ some .halt ∧ b.plant.standby = false))
    (mb : Nat) (sh : Shop) : b.plantScan ma mb sh = (b.tankRead ma mb).republish sh := by
  unfold Blocks.plantScan
  dsimp only
  rw [if_neg (by simpa using h)]
  rfl

theorem Blocks.plantScan_plantActed (ma mb : Nat) (sh : Shop) (b : Blocks) : b.PlantActed (b.plantScan ma mb sh) := by
  have hread : b.PlantActed (b.tankRead ma mb) := ⟨rfl, rfl⟩
  by_cases h : bandAfter b.plant.band (levelOf ma) = .halt ∧ b.plant.band ≠ some .halt ∧ b.plant.standby = false
  · obtain ⟨hband, hold, hst⟩ := h
    rw [Blocks.plantScan_of_entry hband hold hst]
    exact (hread.trans (Blocks.haltEntered_plantActed sh _)).trans ((Blocks.QueueMoved.refl _).republish sh).plantActed
  · rw [Blocks.plantScan_of_no_entry h]
    exact hread.trans ((Blocks.QueueMoved.refl _).republish sh).plantActed

theorem Blocks.plantScan_plant_eq (ma mb : Nat) (sh : Shop) (b : Blocks) :
    (b.plantScan ma mb sh).plant =
      { b.plant with
        band := some (bandAfter b.plant.band (levelOf ma)), turbid := decide (600 < mb)
        published :=
          publishedOf (some (bandAfter b.plant.band (levelOf ma))) (decide (600 < mb)) b.plant.correction
        lastSent := (b.plantScan ma mb sh).plant.lastSent, spacingT := (b.plantScan ma mb sh).plant.spacingT } := by
  by_cases h : bandAfter b.plant.band (levelOf ma) = .halt ∧ b.plant.band ≠ some .halt ∧ b.plant.standby = false
  · obtain ⟨hband, hold, hst⟩ := h
    rw [Blocks.plantScan_of_entry hband hold hst, Blocks.republish_plant_eq,
      Blocks.haltEntered_plant (b := b.tankRead ma mb) (congrArg some hband)]
    rfl
  · rw [Blocks.plantScan_of_no_entry h, Blocks.republish_plant_eq]
    rfl

/-- On the entry into HALT nothing counts as sent (R115). -/
theorem Blocks.plantScan_entry_lastSent {b : Blocks} {ma : Nat} (hband : bandAfter b.plant.band (levelOf ma) = .halt)
    (hold : b.plant.band ≠ some .halt) (hst : b.plant.standby = false) (mb : Nat) (sh : Shop) :
    (b.plantScan ma mb sh).plant.lastSent = 0 := by
  have hentered := Blocks.haltEntered_plant (b := b.tankRead ma mb) (congrArg some hband) sh
  rw [Blocks.plantScan_of_entry hband hold hst]
  rcases Blocks.republish_lastSent sh ((b.tankRead ma mb).haltEntered sh) with h | h
  · rw [h, hentered]
  · rw [hentered] at h
    have hzero :
        publishedOf (some (bandAfter b.plant.band (levelOf ma))) (decide (600 < mb)) b.plant.correction = some 0 := by
      rw [hband]
      rfl
    exact Option.some.inj (h.trans hzero)

theorem Blocks.plantScan_entry_halts {b : Blocks} {ma : Nat} (hband : bandAfter b.plant.band (levelOf ma) = .halt)
    (hold : b.plant.band ≠ some .halt) (hst : b.plant.standby = false) (hi : b.pres.mem ≠ .inert)
    (hm : b.pres.mem ≠ .mute) (hl : b.pres.mem ≠ .outside .listen) (mb : Nat) (sh : Shop) :
    (b.plantScan ma mb sh).line.halting = true ∧
      (b.line.halting = false → ∀ e ∈ (b.plantScan ma mb sh).line.queue, e.inEmission = false) := by
  have hhalts := Blocks.haltEntered_halts (b := b.tankRead ma mb) hi hm hl sh
  have hmoved := (Blocks.QueueMoved.refl ((b.tankRead ma mb).haltEntered sh)).republish sh
  rw [Blocks.plantScan_of_entry hband hold hst]
  refine ⟨hmoved.wire.halting.trans hhalts.1, fun h => ?_⟩
  rw [← Line.emitting_none_iff, ← Line.emissions_eq_zero_iff]
  exact hmoved.emissions.trans (hhalts.2 h)

/-! ## The obligation -/

/-- With no REJOIN pending a reading acts on the blocks alone (R23). -/
theorem exec_analogReading {v : BitVec 10} {s : State} {c : Blocks} (hr : s.dev.blk.host.rejoinPending = false)
    (hc : s.dev.blk.analog v.toNat s.dev.shop = c) (hk : c.host.rejoinPending = s.dev.blk.host.rejoinPending) :
    exec (.analogReading v) s = .next { s with dev.blk := c } := by
  subst hc
  refine congrArg (fun d => Host.Outcome.next { s with dev := d }) (Station.settleRejoin_of_not_pending ?_)
  exact hk.trans hr

/-- Settles O52: each reading by the case of `Meas.reading`, the cutter's tests by their equations, and the plant's scan by
`Blocks.plantScan_plant_eq` and its entry into HALT. -/
theorem scansMoveTheValues : Obligations.ScansMoveTheValues := by
  refine ⟨fun s => ?_, fun v s hr => ?_⟩
  · exact State.run_onBlk (congrArg (fun m : Meas => { s.dev.blk.atDeadline s.dev.blk.meas.sampleT with
      meas := { m with sampleT := s.dev.blk.meas.sampleT + 100 } }) (Meas.trigger_eq s.dev.blk.meas))
  · intro b m o
    refine ⟨fun h => ?_, fun x hx => ?_⟩
    · exact exec_analogReading hr (Blocks.analog_of_open (Meas.reading_idle h _) _) rfl
    intro ends
    have hends : x.ends v.toNat = true ↔ ends := Scan.ends_iff _ _
    refine ⟨fun he => ?_, fun he hfirst => ?_, fun a he ha => ?_⟩
    · exact exec_analogReading hr (Blocks.analog_of_open (Meas.reading_more hx (fun k => he (hends.mp k))) _) rfl
    · exact exec_analogReading hr (Blocks.analog_of_open (Meas.reading_first hx (hends.mpr he) hfirst) _) rfl
    intro maHist mbHist m1
    have hread : m.reading v.toNat = (m1, true) := Meas.reading_second hx (hends.mpr he) ha
    refine ⟨fun hfew => ?_, fun a1 a2 a3 a4 b1 b2 b3 b4 hma hmb => ?_⟩
    · exact exec_analogReading hr (Blocks.analog_of_few hread (Meas.filteredBoth_of_few hfew) _) rfl
    intro fa fb
    have hscan := Blocks.analog_of_filtered hread (Meas.filteredBoth_of_four (m := m1) hma hmb) s.dev.shop
    refine ⟨fun hi => ?_, fun hi hrole => ?_, fun hi hrole => ?_⟩
    · have hsaws : b.saws = false := by simp [Blocks.saws, hi]
      have hplants : b.plants = false := by simp [Blocks.plants, hi]
      have hnone := hscan.trans ((if_neg (by rw [hsaws]; decide)).trans (if_neg (by rw [hplants]; decide)))
      exact exec_analogReading hr hnone rfl
    · have hsaws : b.saws = true := by simp [Blocks.saws, hi, hrole]
      have htests := Blocks.cutterScan_eq fa fb { b with meas := m1 }
      rw [Blocks.rateNow_eq] at htests
      exact exec_analogReading hr (hscan.trans ((if_pos hsaws).trans htests)) rfl
    · have hsaws : b.saws = false := by simp [Blocks.saws, hrole]
      have hplants : b.plants = true := Blocks.plants_of hrole hi
      have hacted := Blocks.plantScan_plantActed fa fb s.dev.shop { b with meas := m1 }
      have hplant := Blocks.plantScan_plant_eq fa fb s.dev.shop { b with meas := m1 }
      have hscans := hscan.trans ((if_neg (by rw [hsaws]; decide)).trans (if_pos hplants))
      refine ⟨_, exec_analogReading hr hscans hacted.rejoin, hacted.meas, rfl, hacted.pres, hacted.saw,
        congrArg PlantUnit.band hplant, congrArg PlantUnit.turbid hplant, (congrArg PlantUnit.correction hplant :),
        congrArg PlantUnit.published hplant, fun hband hold hst => ⟨?_, fun hm hl => ?_⟩⟩
      · exact Blocks.plantScan_entry_lastSent (b := { b with meas := m1 }) hband hold hst fb s.dev.shop
      · exact Blocks.plantScan_entry_halts (b := { b with meas := m1 }) hband hold hst hi hm hl fb s.dev.shop

end Sys2Proof.Machine

/-! What the other blocks' moves leave of the saw, the planner, the presence unit and the measurement unit (R28): one
relation, and one lemma an operation, each reading `from what held before the operation to what holds after it`. -/

namespace Sys2Proof.Machine

/-- From the blocks `b` to the blocks `c`, nothing has moved but the line, the table unit's bookkeeping, the plant unit, the
cost unit and the host port. -/
structure Blocks.Outside (b c : Blocks) : Prop where
  rest : c = { b with line := c.line, asking := c.asking, plant := c.plant, cost := c.cost, host := c.host }

namespace Blocks.Outside

variable {a b c : Blocks}

theorem refl (a : Blocks) : a.Outside a := ⟨rfl⟩

theorem trans (h : a.Outside b) (k : b.Outside c) : a.Outside c := ⟨by rw [k.rest, h.rest]⟩

theorem saw (h : a.Outside b) : b.saw = a.saw := by rw [h.rest]

theorem planner (h : a.Outside b) : b.planner = a.planner := by rw [h.rest]

theorem pres (h : a.Outside b) : b.pres = a.pres := by rw [h.rest]

theorem meas (h : a.Outside b) : b.meas = a.meas := by rw [h.rest]

theorem now (h : a.Outside b) : b.now = a.now := by rw [h.rest]

theorem of_queueMoved (h : a.QueueMoved b) : a.Outside b := ⟨by rw [h.rest]⟩

theorem post (h : a.Outside b) (n : Notice) : a.Outside (b.post n) := h.trans ⟨by rw [Blocks.post_eq]⟩

theorem onCost (h : a.Outside b) (f : CostUnit → CostUnit) : a.Outside (b.onCost f) := h.trans ⟨rfl⟩

theorem onPlant (h : a.Outside b) (f : PlantUnit → PlantUnit) : a.Outside (b.onPlant f) := h.trans ⟨rfl⟩

theorem onLine (h : a.Outside b) (f : Line → Line) : a.Outside (b.onLine f) := h.trans ⟨rfl⟩

theorem onAsking (h : a.Outside b) (f : Asking → Asking) : a.Outside (b.onAsking f) := h.trans ⟨rfl⟩

theorem offer (h : a.Outside b) (p : Producer) (f : Frame) : a.Outside (b.offer p f) :=
  h.trans (.of_queueMoved ((QueueMoved.refl b).offer p f))

theorem withdraw (h : a.Outside b) (p : Producer) (sel : Frame → Bool) : a.Outside (b.withdraw p sel) := h.trans ⟨rfl⟩

/-- A run of moves. -/
theorem foldl {β : Type} {f : Blocks → β → Blocks} (hf : ∀ x c, a.Outside c → a.Outside (f c x)) :
    ∀ (l : List β) {b : Blocks}, a.Outside b → a.Outside (l.foldl f b) := by
  intro l
  induction l with
  | nil => intro b h; exact h
  | cons x rest ih => intro b h; exact ih (hf x b h)

theorem postAll (h : a.Outside b) (l : List Notice) : a.Outside (b.postAll l) := foldl (fun x _ k => k.post x) l h

/-! ## The table unit (02) -/

theorem streamNews (h : a.Outside b) (x : Applied) (sh : Shop) : a.Outside (b.streamNews x sh) :=
  h.trans (.of_queueMoved ((QueueMoved.refl b).streamNews x sh))

theorem streamAfter (h : a.Outside b) (members ledger : Bool) (sh : Shop) :
    a.Outside (b.streamAfter members ledger sh) := by
  unfold Blocks.streamAfter Blocks.restartStream Blocks.startStream
  repeat' split
  · exact h
  · exact h
  · exact ((h.withdraw .table isSnap).onAsking _).trans (.of_queueMoved ((QueueMoved.refl _).offerSnap sh))
  · exact h.trans (.of_queueMoved ((QueueMoved.refl b).refreshStream sh))

theorem snapCompleted (h : a.Outside b) (sh : Shop) (f : Frame) : a.Outside (b.snapCompleted sh f) := by
  unfold Blocks.snapCompleted
  repeat' split
  · exact h
  · exact h.onAsking _
  · exact (h.onAsking _).trans (.of_queueMoved ((QueueMoved.refl _).offerSnap sh))
  · exact h

theorem dropStream (h : a.Outside b) : a.Outside b.dropStream := by
  unfold Blocks.dropStream
  split
  · exact h
  · exact (h.withdraw _ _).onAsking _

theorem rivalSnap (h : a.Outside b) (sender asker : Nat) : a.Outside (b.rivalSnap sender asker) := by
  unfold Blocks.rivalSnap
  repeat' split
  · exact h
  · exact h.dropStream
  · exact h

theorem withdrawRebase (h : a.Outside b) : a.Outside b.withdrawRebase := h.trans ⟨rfl⟩

theorem takeSyncAsk (h : a.Outside b) (sender : Nat) (sh : Shop) : a.Outside (b.takeSyncAsk sender sh) := by
  have h1 := h.onAsking (fun x => { x with askHeard := Slots.set sender b.now x.askHeard })
  unfold Blocks.takeSyncAsk
  dsimp only
  split
  · exact (h1.onAsking _).trans (.of_queueMoved ((QueueMoved.refl _).offerSnap sh))
  · exact h1

/-! ## The line controller (01) -/

/-- The end of an attempt moves the queue, the plant unit's BUDGET and the table unit's stream (R17, R18). -/
theorem attemptEnds (h : a.Outside b) (x : Attempt) (sh : Shop) : a.Outside (b.attemptEnds x sh) := by
  cases he : b.line.emitting with
  | none =>
    rw [Blocks.attemptEnds_none he]
    exact h
  | some e =>
    have hfailed : b.Outside (b.attemptFailed x) := ⟨by rw [(b.attemptFailed_failed x).rest]⟩
    rw [Blocks.attemptEnds_some he]
    exact (h.trans hfailed).trans (.of_queueMoved ((QueueMoved.refl _).afterAttempt x e sh))

theorem haltBreak (h : a.Outside b) (sh : Shop) : a.Outside (b.haltBreak sh) := by
  unfold Blocks.haltBreak
  repeat' split
  all_goals first
    | exact h
    | exact (h.onLine _).attemptEnds .broke sh

theorem transmit (h : a.Outside b) (sh : Shop) : a.Outside (b.transmit sh) := by
  unfold Blocks.transmit
  repeat' split
  · exact h
  · exact h.onLine _
  · exact h

/-! ## The sequencer's ask (R147) -/

theorem askCheck (h : a.Outside b) (sh : Shop) : a.Outside (b.askCheck sh) := by
  unfold Blocks.askCheck
  split
  · exact h.offer _ _
  · exact h

theorem sawNews (h : a.Outside b) (x : Applied) (sh : Shop) : a.Outside (b.sawNews x sh) := by
  unfold Blocks.sawNews
  repeat' split
  · exact h.askCheck sh
  · exact h
  · exact h.askCheck sh
  · exact h
  · exact h

/-! ## The plant unit (06) -/

theorem plantCompare (h : a.Outside b) (sh : Shop) : a.Outside (b.plantCompare sh) :=
  h.trans (.of_queueMoved ((QueueMoved.refl b).plantCompare sh))

theorem ledgerReport (h : a.Outside b) (sh : Shop) : a.Outside (b.ledgerReport sh) :=
  h.trans (.of_queueMoved ((QueueMoved.refl b).ledgerReport sh))

theorem breakReport (h : a.Outside b) (st : ReplicaState) (sh : Shop) : a.Outside (b.breakReport st sh) := by
  cases st with
  | empty => exact h
  | current | stale | building => exact h.ledgerReport sh

theorem enterStandby (h : a.Outside b) (sh : Shop) : a.Outside (b.enterStandby sh) := by
  unfold Blocks.enterStandby
  split
  · exact ((h.onPlant _).withdraw _ _).post _
  · exact h

theorem leaveStandby (h : a.Outside b) : a.Outside b.leaveStandby := by
  unfold Blocks.leaveStandby
  split
  · exact h.onPlant _
  · exact h

theorem reportIntoStandby (h : a.Outside b) (sh : Shop) : a.Outside (b.reportIntoStandby sh) := by
  unfold Blocks.reportIntoStandby
  split
  · exact ((h.onPlant _).enterStandby sh).plantCompare sh
  · exact h

theorem plantLive (h : a.Outside b) (sh : Shop) : a.Outside (b.plantLive sh) := by
  unfold Blocks.plantLive
  repeat' split
  · exact h.enterStandby sh
  · exact h.plantCompare sh
  · exact h

theorem plantCurrent (h : a.Outside b) (sh : Shop) : a.Outside (b.plantCurrent sh) := by
  unfold Blocks.plantCurrent
  dsimp only
  repeat' split
  · exact h.leaveStandby.reportIntoStandby sh
  · exact h.leaveStandby.ledgerReport sh
  · exact h.reportIntoStandby sh
  · exact h.ledgerReport sh

theorem plantAbsent (h : a.Outside b) (before : Replica) (sh : Shop) : a.Outside (b.plantAbsent before sh) := by
  unfold Blocks.plantAbsent
  split
  · exact h.leaveStandby.ledgerReport sh
  · exact h

theorem budgetOutcome (h : a.Outside b) (v : Nat) (void : Option VoidReason) (sh : Shop) :
    a.Outside (b.budgetOutcome v void sh) := by
  unfold Blocks.budgetOutcome
  repeat' split
  · exact (h.onPlant _).plantCompare sh
  · exact h.enterStandby sh
  · exact h.ledgerReport sh
  · exact h

theorem plantNews (h : a.Outside b) (x : Applied) (sh : Shop) : a.Outside (b.plantNews x sh) := by
  unfold Blocks.plantNews Blocks.rivalBudget
  repeat' split
  · exact h.budgetOutcome _ _ sh
  · exact h.reportIntoStandby sh
  · exact h.ledgerReport sh
  · exact h
  · exact h.plantAbsent _ sh
  · exact h

theorem republish (h : a.Outside b) (sh : Shop) : a.Outside (b.republish sh) := by
  unfold Blocks.republish
  dsimp only
  split
  · exact h.onPlant _
  · exact (h.onPlant _).plantCompare sh

/-! ## The cost unit (09) -/

theorem reportLine (h : a.Outside b) (slot : Nat) (x : CostLine) : a.Outside (b.reportLine slot x) :=
  (h.onCost _).offer _ _

theorem reportChecks (h : a.Outside b) (sh : Shop) : a.Outside (b.reportChecks sh) := by
  unfold Blocks.reportChecks
  split
  · refine foldl (fun x c k => ?_) _ h
    split
    · exact k.reportLine _ _
    · exact k
  · exact h

theorem zeroCheck (h : a.Outside b) (sh : Shop) (job : Nat) : a.Outside (b.zeroCheck sh job) := by
  unfold Blocks.zeroCheck
  split
  · exact (h.onCost _).offer _ _
  · exact h

theorem withdrawZero (h : a.Outside b) (job : Nat) : a.Outside (b.withdrawZero job) := by
  unfold Blocks.withdrawZero
  dsimp only
  repeat' split
  · exact (h.withdraw _ _).onCost _
  · exact h.withdraw _ _
  · exact h

theorem dropZeros (h : a.Outside b) (before after : Replica) : a.Outside (b.dropZeros before after) := by
  unfold Blocks.dropZeros
  refine foldl (fun x c k => ?_) _ h
  split
  · exact k.withdrawZero x
  · exact k

theorem postTallies (h : a.Outside b) (before after : Replica) : a.Outside (b.postTallies before after) := by
  unfold Blocks.postTallies
  split
  · exact foldl (fun x c k => k.post _) _ h
  · exact h

theorem costAfter (h : a.Outside b) (before : Replica) (sh : Shop) : a.Outside (b.costAfter before sh) :=
  (((h.onCost _).dropZeros before sh.rep).reportChecks sh).postTallies before sh.rep

theorem leaveNews (h : a.Outside b) (x : Applied) (sh : Shop) : a.Outside (b.leaveNews x sh) := by
  unfold Blocks.leaveNews
  split
  · exact (h.plantAbsent _ _).costAfter _ _
  · exact h

theorem costCurrent (h : a.Outside b) (sh : Shop) : a.Outside (b.costCurrent sh) :=
  foldl (fun x _ k => k.zeroCheck sh x) _ ((h.onCost _).reportChecks sh)

theorem reportOutcome (h : a.Outside b) (job : Nat) (taken : Bool) (gen : Word16) :
    a.Outside (b.reportOutcome job taken gen) := by
  unfold Blocks.reportOutcome
  repeat' split
  · exact h
  · exact h.onCost _
  · exact h.onCost _
  · exact (h.onCost _).post _

theorem costPlanEnded (h : a.Outside b) (sh : Shop) : a.Outside (b.costPlanEnded sh) := (h.onCost _).reportChecks sh

theorem figuresNews (h : a.Outside b) (x : Applied) : a.Outside (b.figuresNews x) := by
  unfold Blocks.figuresNews
  repeat' split
  · exact h.onCost _
  · exact h.onCost _
  · exact h
  · exact h

/-! ## The host port (10) -/

theorem hostNews (h : a.Outside b) (x : Applied) : a.Outside (b.hostNews x) := by
  unfold Blocks.hostNews
  repeat' split
  all_goals first
    | exact h.post _
    | exact h

theorem tellDuplicate (h : a.Outside b) (own : Bool) (f : Taken) (before : Blocks) :
    a.Outside (Blocks.tellDuplicate own f before b) := by
  unfold Blocks.tellDuplicate
  split
  · exact h.post _
  · exact h

end Blocks.Outside

end Sys2Proof.Machine

/-! The laws of the saw (R124, R142, R149, R151, R152): what they say, which moves cannot touch them, and the sequencer's own
moves, each of which ends in a state that meets them. -/

namespace Sys2Proof.Machine

/-! ## The laws -/

/-- The laws of the sequencer's outputs, timers and plan copy (R142, R145, R151, R152, R156). -/
structure Saw.Lawful (w : Saw) : Prop where
  feed : w.feedOn = true → w.st = .cutting
  water : w.st = .cutting ∨ w.st = .spinup → w.blade = true ∧ atLeast60 w.grant w.need = true
  driven : w.blade = true → w.st = .spinup ∨ w.st = .cutting ∨ w.st = .held ∨ w.st = .indexWait
  runs : w.blade = true → atLeast25 w.valve w.need = true ∧ w.valve = min w.grant w.need
  shut : w.blade = false → w.valve = 0
  speed : w.atSpeed = true → w.blade = true
  idleSpin : w.idleSpinT.isSome = true → w.st = .indexWait
  plan : w.planLaw = true

theorem Saw.lawful_iff (w : Saw) :
    w.Lawful ↔ w.feedLaw = true ∧ w.cutLaw = true ∧ w.bladeLaw = true ∧ w.stateLaw = true ∧ w.planLaw = true := by
  have hfeed : w.feedLaw = true ↔ (w.feedOn = true → w.st = .cutting) := by
    cases hf : w.feedOn <;> simp [Saw.feedLaw, hf]
  have hblade : w.bladeLaw = true ↔ (w.blade = true → atLeast25 w.valve w.need = true ∧ w.valve = min w.grant w.need) ∧
      (w.blade = false → w.valve = 0) := by
    cases hb : w.blade <;> simp [Saw.bladeLaw, hb]
  have hcut : w.cutLaw = true ↔ (w.st = .cutting → w.blade = true ∧ atLeast60 w.grant w.need = true) := by
    by_cases hst : w.st = .cutting <;> simp [Saw.cutLaw, hst]
  have hstate : w.stateLaw = true ↔
      (w.blade = true → w.st = .spinup ∨ w.st = .cutting ∨ w.st = .held ∨ w.st = .indexWait) ∧
        (w.st = .spinup → w.blade = true ∧ atLeast60 w.grant w.need = true) ∧
        (w.atSpeed = true → w.blade = true) ∧ (w.idleSpinT.isSome = true → w.st = .indexWait) := by
    simp only [Saw.stateLaw, Bool.and_eq_true, Bool.or_eq_true, Bool.not_eq_true', beq_iff_eq, bne_iff_ne,
      Option.isNone_iff_eq_none, Option.isSome_iff_ne_none, and_assoc, or_assoc, ← Bool.not_eq_true, imp_iff_not_or, ne_eq,
      not_not]
  rw [hfeed, hcut, hblade, hstate]
  constructor
  · intro h
    exact ⟨h.feed, fun k => h.water (.inl k), ⟨h.runs, h.shut⟩,
      ⟨h.driven, fun k => h.water (.inr k), h.speed, h.idleSpin⟩, h.plan⟩
  · intro ⟨h1, h2, ⟨h3, h4⟩, ⟨h5, h6, h7, h8⟩, h9⟩
    exact ⟨h1, fun k => k.elim h2 h6, h5, h3, h4, h7, h8, h9⟩

/-- The laws of the saw hold at a replica: the outputs', the mirror of R124, the rest of R49 and R50, and the grant held is
the effective one (R100, R149). -/
structure Blocks.Lawful (sh : Shop) (b : Blocks) : Prop where
  saw : b.saw.Lawful
  mirror : mirrors b.planner.plan b.saw.st = true
  rest : b.restLaw = true
  grant : b.saw.grant = effGrant sh b

theorem sawSound_iff (sh : Shop) (b : Blocks) : sawSound sh b = true ↔ b.Lawful sh := by
  simp only [sawSound, Bool.and_eq_true, beq_iff_eq, and_assoc]
  constructor
  · intro ⟨h1, h2, h3, h4, h5, hm, hr, hg⟩
    exact ⟨(Saw.lawful_iff _).mpr ⟨h1, h2, h3, h4, h5⟩, hm, hr, hg⟩
  · intro h
    obtain ⟨h1, h2, h3, h4, h5⟩ := (Saw.lawful_iff _).mp h.saw
    exact ⟨h1, h2, h3, h4, h5, h.mirror, h.rest, h.grant⟩

/-! ## Moves that cannot touch them -/

/-- The saw, the planner and the straps have not moved, and the station has not become INERT. -/
structure Blocks.SawStands (b c : Blocks) : Prop where
  saw : c.saw = b.saw
  planner : c.planner = b.planner
  station : c.pres.station = b.pres.station
  role : c.pres.role = b.pres.role
  inert : c.pres.mem = .inert → b.pres.mem = .inert

theorem Blocks.SawStands.refl (b : Blocks) : b.SawStands b := ⟨rfl, rfl, rfl, rfl, id⟩

theorem Blocks.SawStands.trans {a b c : Blocks} (h : a.SawStands b) (k : b.SawStands c) : a.SawStands c :=
  ⟨k.saw.trans h.saw, k.planner.trans h.planner, k.station.trans h.station, k.role.trans h.role, fun x => h.inert (k.inert x)⟩

theorem Blocks.Outside.sawStands {b c : Blocks} (h : b.Outside c) : b.SawStands c :=
  ⟨h.saw, h.planner, by rw [h.pres], by rw [h.pres], by rw [h.pres]; exact id⟩

theorem Blocks.saws_iff (b : Blocks) : b.saws = true ↔ b.pres.role = .cutter ∧ b.pres.mem ≠ .inert := by
  simp [Blocks.saws]

theorem Blocks.saws_of {b c : Blocks} (h : b.saws = true) (hr : c.pres.role = b.pres.role)
    (hm : c.pres.mem = .inert → b.pres.mem = .inert) : c.saws = true := by
  rw [Blocks.saws_iff] at h ⊢
  exact ⟨hr.trans h.1, fun k => h.2 (hm k)⟩

theorem Blocks.restLaw_iff (b : Blocks) :
    b.restLaw = true ↔ b.saws = true ∨ (b.planner.plan = none ∧ b.planner.pieces = []) := by
  simp [Blocks.restLaw]

/-- The effective grant reads the straps and the replica (R100). -/
theorem effGrant_of_straps {b c : Blocks} (hs : c.pres.station = b.pres.station) (hr : c.pres.role = b.pres.role)
    (sh : Shop) : effGrant sh c = effGrant sh b := by
  unfold effGrant
  rw [hs, hr]

theorem effGrant_of_not_current {sh : Shop} (h : sh.current = false) (b : Blocks) : effGrant sh b = 0 := by
  simp [effGrant, h]

theorem Blocks.Lawful.stands {sh : Shop} {b c : Blocks} (h : b.Lawful sh) (k : b.SawStands c) : c.Lawful sh := by
  refine ⟨k.saw ▸ h.saw, ?_, ?_, ?_⟩
  · rw [k.saw, k.planner]
    exact h.mirror
  · rw [Blocks.restLaw_iff, k.planner]
    exact ((Blocks.restLaw_iff b).mp h.rest).imp_left (fun hs => Blocks.saws_of hs k.role k.inert)
  · rw [k.saw, effGrant_of_straps k.station k.role]
    exact h.grant

theorem Blocks.Lawful.outside {sh : Shop} {b c : Blocks} (h : b.Lawful sh) (k : b.Outside c) : c.Lawful sh :=
  h.stands k.sawStands

/-- A shop state that is not CURRENT may replace another one: neither grants anything (R100). -/
theorem Blocks.Lawful.notCurrent {sh sh' : Shop} {b : Blocks} (h : b.Lawful sh) (hc : sh.current = false)
    (hc' : sh'.current = false) : b.Lawful sh' :=
  { h with grant := by rw [h.grant, effGrant_of_not_current hc, effGrant_of_not_current hc'] }

/-! ## The mirror (R124) -/

theorem mirrors_some_iff (p : Plan) (w : SawState) :
    mirrors (some p) w = true ↔
      (p.keptRelease = true → p.releasing = true) ∧ (if p.releasing then w = .idle else p.following.allows w = true) := by
  simp only [mirrors, Bool.and_eq_true, Bool.or_eq_true, Bool.not_eq_true']
  refine and_congr ?_ ?_
  · cases p.keptRelease <;> simp
  · cases p.releasing <;> simp

/-- With the sequencer at work there is a plan, it is not being released, and it follows the sequencer. -/
theorem mirrors_at_work {plan : Option Plan} {w : SawState} (h : mirrors plan w = true) (hw : w ≠ .idle) :
    ∃ p, plan = some p ∧ p.releasing = false ∧ p.keptRelease = false ∧ p.following.allows w = true := by
  cases plan with
  | none => exact absurd (by simpa [mirrors] using h) hw
  | some p =>
    obtain ⟨hk, hf⟩ := (mirrors_some_iff p w).mp h
    cases hr : p.releasing with
    | true =>
      rw [hr] at hf
      exact absurd hf hw
    | false =>
      rw [hr] at hf hk
      exact ⟨p, rfl, hr, Bool.eq_false_iff.mpr (fun k => Bool.false_ne_true (hk k)), hf⟩

/-- The plan's stage stands; a kept RELEASE was kept before, or the plan is being released. -/
structure Plan.Staged (p q : Plan) : Prop where
  following : q.following = p.following
  releasing : q.releasing = p.releasing
  keptRelease : q.keptRelease = true → p.keptRelease = true ∨ q.releasing = true

theorem Plan.Staged.refl (p : Plan) : p.Staged p := ⟨rfl, rfl, .inl⟩

/-- The mirror reads the plan's stage and its marks alone. -/
theorem Plan.Staged.mirrors {p q : Plan} (h : p.Staged q) {w : SawState} (hm : mirrors (some p) w = true) :
    mirrors (some q) w = true := by
  rw [mirrors_some_iff] at hm ⊢
  obtain ⟨hk, hf⟩ := hm
  rw [h.following, h.releasing]
  exact ⟨fun k => (h.keptRelease k).elim hk (fun e => h.releasing ▸ e), hf⟩

/-- The plan stage that a sequencer state reports goes with that state, and is never RECLAIMING. -/
theorem SawState.allows_mirrored {st : SawState} {x : PlanState} (h : st.mirrored = some x) :
    x.allows st = true ∧ x ≠ .reclaiming := by
  cases st <;> cases h <;> decide

theorem Plan.following_mirror {p : Plan} {x : PlanState} (hr : p.releasing = false) (hx : x ≠ .reclaiming) :
    (p.mirror x).following = x := by
  by_cases h : p.state = .reclaiming
  · simp [Plan.mirror, Plan.following, hr, h]
  · simp [Plan.mirror, Plan.following, hr, h, hx]

theorem Plan.mirror_marks (p : Plan) (x : PlanState) :
    (p.mirror x).releasing = p.releasing ∧ (p.mirror x).keptRelease = p.keptRelease := by
  unfold Plan.mirror
  repeat' split
  all_goals exact ⟨rfl, rfl⟩

/-! ## What each move of the sequencer makes of the saw and the plan -/

@[simp] theorem Blocks.setValve_planner (v : Nat) (b : Blocks) : (b.setValve v).planner = b.planner := by
  unfold Blocks.setValve
  dsimp only
  repeat' split
  all_goals rfl

@[simp] theorem Blocks.valveAtGrant_saw (b : Blocks) :
    b.valveAtGrant.saw = { b.saw with valve := min b.saw.grant b.saw.need } := Blocks.setValve_saw _ _

@[simp] theorem Blocks.valveAtGrant_planner (b : Blocks) : b.valveAtGrant.planner = b.planner :=
  Blocks.setValve_planner _ _

@[simp] theorem Blocks.bladeOff_saw (b : Blocks) :
    b.bladeOff.saw = { b.saw with blade := false, spinT := none, atSpeed := false, valve := 0 } :=
  Blocks.setValve_saw _ _

@[simp] theorem Blocks.bladeOff_planner (b : Blocks) : b.bladeOff.planner = b.planner := Blocks.setValve_planner _ _

theorem Blocks.startDrop_saw (b : Blocks) :
    b.startDrop.saw = { b.saw with dropT := if b.saw.waterWanted then some (b.now + 5000) else b.saw.dropT } := by
  rw [Blocks.startDrop_eq]

@[simp] theorem Blocks.startDrop_planner (b : Blocks) : b.startDrop.planner = b.planner := by rw [Blocks.startDrop_eq]

/-- The plan after a state's report (R133). -/
theorem Blocks.sawEnter_plan {st : SawState} {x : PlanState} (h : st.mirrored = some x) (b : Blocks) :
    (b.sawEnter st).planner.plan =
      b.planner.plan.map (fun p => { p.mirror x with fault := if x = .faulted then p.fault else none }) := by
  unfold Blocks.sawEnter Blocks.reportState
  rw [h]
  rfl

/-- A fault stops the saw, for whatever reason (R158, R162). -/
theorem Blocks.sawFault_saw (r : FaultReason) (b : Blocks) : (b.sawFault r).saw = b.saw.stopped b.now r := by
  unfold Blocks.sawFault Blocks.bladeOff
  dsimp only
  rw [Blocks.setValve_zero, Blocks.startDrop_eq]
  split <;> simp only [Blocks.post_saw] <;> rfl

theorem Blocks.sawFault_plan (r : FaultReason) (b : Blocks) :
    (b.sawFault r).planner.plan = b.planner.plan.map (fun p => { p.mirror .faulted with fault := some r }) := by
  unfold Blocks.sawFault Blocks.bladeOff
  dsimp only
  rw [Blocks.setValve_zero, Blocks.startDrop_eq]
  split <;> simp only [Blocks.post_planner] <;> rfl

/-! ## The sequencer at work -/

/-- The sequencer and the planner hold one plan, which is not being released. -/
structure Blocks.Bound (sh : Shop) (b : Blocks) : Prop where
  saws : b.saws = true
  grant : b.saw.grant = effGrant sh b
  copy : ∃ q, b.saw.plan = some q ∧ q.need = needOf q.thickness
  plan : ∃ p, b.planner.plan = some p ∧ p.releasing = false ∧ p.keptRelease = false

/-- The sequencer runs a plan: it stands in `st`, which the plan mirrors, with the need of the plan's thickness; the outputs
may still have to follow the state. -/
structure Blocks.At (st : SawState) (sh : Shop) (b : Blocks) : Prop where
  state : b.saw.st = st
  saws : b.saws = true
  grant : b.saw.grant = effGrant sh b
  copy : ∃ q, b.saw.plan = some q ∧ q.need = needOf q.thickness
  plan : ∃ p, b.planner.plan = some p ∧ p.releasing = false ∧ p.keptRelease = false ∧ p.following.allows st = true

/-- A state is entered, and the plan takes its stage (R133). -/
theorem Blocks.Bound.enter {sh : Shop} {b : Blocks} (h : b.Bound sh) (st' : SawState) (hst : st' ≠ .idle) :
    (b.sawEnter st').At st' sh := by
  have hm : ∃ x, st'.mirrored = some x := by cases st' <;> first | exact absurd rfl hst | exact ⟨_, rfl⟩
  obtain ⟨x, hx⟩ := hm
  obtain ⟨hallows, hne⟩ := SawState.allows_mirrored hx
  obtain ⟨p, hp, hr, hk⟩ := h.plan
  have t := (Tells.refl b).sawEnter st'
  have m := (Moves.refl false b).sawEnter st'
  refine ⟨by rw [Blocks.sawEnter_saw], Blocks.saws_of h.saws t.role (by rw [m.mem rfl]; exact id), ?_, ?_,
    { p.mirror x with fault := if x = .faulted then p.fault else none }, ?_, ?_, ?_, ?_⟩
  · rw [m.grant rfl, effGrant_of_straps t.station t.role]
    exact h.grant
  · rw [Blocks.sawEnter_saw]
    exact h.copy
  · rw [Blocks.sawEnter_plan hx, hp]
    rfl
  · exact (p.mirror_marks x).1.trans hr
  · exact (p.mirror_marks x).2.trans hk
  · exact (congrArg (fun y => PlanState.allows y st') (Plan.following_mirror hr hne)).trans hallows

/-- A fault (R158). -/
theorem Blocks.Bound.fault {sh : Shop} {b : Blocks} (h : b.Bound sh) (r : FaultReason) : (b.sawFault r).Lawful sh := by
  obtain ⟨p, hp, hr, hk⟩ := h.plan
  have t := (Tells.refl b).sawFault r
  have m := (Moves.refl false b).sawFault r
  have hsaw := Blocks.sawFault_saw r b
  refine ⟨?_, ?_, (Blocks.restLaw_iff _).mpr (.inl (Blocks.saws_of h.saws t.role (by rw [m.mem rfl]; exact id))), ?_⟩
  · obtain ⟨q, hq, hn⟩ := h.copy
    rw [hsaw]
    constructor <;> simp [Saw.stopped, Saw.planLaw, hq, hn]
  · rw [hsaw, Blocks.sawFault_plan, hp]
    refine (mirrors_some_iff _ _).mpr ?_
    show ((p.mirror .faulted).keptRelease = true → (p.mirror .faulted).releasing = true) ∧
      (if (p.mirror .faulted).releasing then SawState.faulted = .idle else (p.mirror .faulted).following.allows .faulted = true)
    rw [(p.mirror_marks _).1, (p.mirror_marks _).2, hr, hk, Plan.following_mirror hr (by decide)]
    exact ⟨id, rfl⟩
  · rw [m.grant rfl, effGrant_of_straps t.station t.role]
    exact h.grant

namespace Blocks.At

variable {st : SawState} {sh : Shop} {b c : Blocks}

theorem bound (h : b.At st sh) : b.Bound sh := by
  obtain ⟨p, hp, hr, hk, _⟩ := h.plan
  exact ⟨h.saws, h.grant, h.copy, p, hp, hr, hk⟩

theorem enter (h : b.At st sh) (st' : SawState) (hst : st' ≠ .idle) : (b.sawEnter st').At st' sh := h.bound.enter st' hst

theorem fault (h : b.At st sh) (r : FaultReason) : (b.sawFault r).Lawful sh := h.bound.fault r

theorem mirror (h : b.At st sh) : mirrors b.planner.plan b.saw.st = true := by
  obtain ⟨p, hp, hr, hk, hf⟩ := h.plan
  rw [hp, h.state, mirrors_some_iff, hr, hk]
  exact ⟨id, hf⟩

theorem planLaw (h : b.At st sh) : b.saw.planLaw = true := by
  obtain ⟨q, hq, hn⟩ := h.copy
  simpa [Saw.planLaw, hq] using hn

/-- With its outputs as its state wants them, the sequencer meets its laws. -/
theorem lawful (h : b.At st sh) (hw : b.saw.Lawful) : b.Lawful sh :=
  ⟨hw, h.mirror, (Blocks.restLaw_iff b).mpr (.inl h.saws), h.grant⟩

/-- A move that leaves the state, the grant, the plan and its copy. -/
theorem same (h : b.At st sh) (t : Tells b c) (m : Moves false b c) (h1 : c.saw.st = b.saw.st)
    (h2 : c.saw.plan = b.saw.plan) (h3 : c.planner.plan = b.planner.plan) : c.At st sh :=
  { state := h1.trans h.state
    saws := Blocks.saws_of h.saws t.role (by rw [m.mem rfl]; exact id)
    grant := by rw [m.grant rfl, effGrant_of_straps t.station t.role]; exact h.grant
    copy := h2 ▸ h.copy
    plan := h3 ▸ h.plan }

theorem onSaw (h : b.At st sh) {f : Saw → Saw} (h1 : (f b.saw).st = b.saw.st) (h2 : (f b.saw).plan = b.saw.plan)
    (h3 : (f b.saw).grant = b.saw.grant) : (b.onSaw f).At st sh :=
  { h with state := h1.trans h.state, grant := h3.trans h.grant, copy := h2 ▸ h.copy }

theorem outside (h : b.At st sh) (k : b.Outside c) : c.At st sh :=
  { state := by rw [k.saw]; exact h.state
    saws := Blocks.saws_of h.saws (by rw [k.pres]) (by rw [k.pres]; exact id)
    grant := by
      rw [k.saw]
      exact h.grant.trans (effGrant_of_straps (by rw [k.pres]) (by rw [k.pres]) sh).symm
    copy := by rw [k.saw]; exact h.copy
    plan := by rw [k.planner]; exact h.plan }

theorem valveAtGrant (h : b.At st sh) : b.valveAtGrant.At st sh :=
  h.same (Tells.refl b).valveAtGrant (Moves.refl false b).valveAtGrant (by simp) (by simp) (by simp)

theorem bladeOff (h : b.At st sh) : b.bladeOff.At st sh :=
  h.same (Tells.refl b).bladeOff (Moves.refl false b).bladeOff (by simp) (by simp) (by simp)

/-! ### The outputs follow the state (R142) -/

/-- The blade and the valve are off. -/
theorem off (h : b.At st sh) (hst : st ≠ .cutting ∧ st ≠ .spinup) (hfeed : b.saw.feedOn = false)
    (hspin : b.saw.idleSpinT = none ∨ st = .indexWait) : b.bladeOff.Lawful sh := by
  refine h.bladeOff.lawful ?_
  constructor <;> simp only [Blocks.bladeOff_saw]
  · simp [hfeed]
  · intro k
    rw [h.state] at k
    exact absurd k (not_or.mpr hst)
  · simp
  · simp
  · simp
  · simp
  · intro k
    rcases hspin with e | e
    · simp [e] at k
    · exact h.state.trans e
  · exact h.planLaw

/-- The valve passes the grant, up to the need, with the blade on. -/
theorem on (h : b.At st sh) (hblade : b.saw.blade = true) (h25 : atLeast25 b.saw.grant b.saw.need = true)
    (hst : st = .spinup ∨ st = .cutting ∨ st = .held ∨ st = .indexWait)
    (h60 : st = .cutting ∨ st = .spinup → atLeast60 b.saw.grant b.saw.need = true)
    (hfeed : b.saw.feedOn = true → st = .cutting) (hspin : b.saw.idleSpinT.isSome = true → st = .indexWait) :
    b.valveAtGrant.Lawful sh := by
  have hs := h.state
  refine h.valveAtGrant.lawful ?_
  constructor <;> simp only [Blocks.valveAtGrant_saw]
  · exact fun k => hs.trans (hfeed k)
  · exact fun k => ⟨hblade, h60 (hs ▸ k)⟩
  · exact fun _ => hs ▸ hst
  · refine fun _ => ⟨?_, rfl⟩
    show decide (b.saw.need ≤ min b.saw.grant b.saw.need * 4) = true
    simp only [atLeast25, decide_eq_true_eq] at h25 ⊢
    omega
  · simp [hblade]
  · exact fun _ => hblade
  · exact fun k => hs.trans (hspin k)
  · exact h.planLaw

/-- The blade turns on (R142). -/
theorem turnOn (h : b.At st sh) (h25 : atLeast25 b.saw.grant b.saw.need = true) (hst : st = .spinup ∨ st = .held)
    (h60 : st = .spinup → atLeast60 b.saw.grant b.saw.need = true) (hfeed : b.saw.feedOn = false)
    (hspin : b.saw.idleSpinT = none) : b.bladeOn.Lawful sh := by
  have h1 : (b.onSaw (fun w => { w with blade := true, spinT := b.after 3000, atSpeed := false })).At st sh :=
    h.onSaw rfl rfl rfl
  refine h1.on rfl h25 (hst.elim .inl (fun k => .inr (.inr (.inl k)))) (fun k => h60 ?_) ?_ ?_
  · rcases hst with e | e
    · exact e
    · rw [e] at k
      exact absurd k (by decide)
  · exact fun k => absurd (hfeed.symm.trans k) Bool.false_ne_true
  · intro k
    rw [Blocks.onSaw_saw, hspin] at k
    exact absurd k (by decide)

end Blocks.At

theorem Saw.Lawful.feedOn_of_not_cutting {w : Saw} (h : w.Lawful) (hst : w.st ≠ .cutting) : w.feedOn = false :=
  Bool.eq_false_iff.mpr (fun k => hst (h.feed k))

theorem Saw.Lawful.idleSpinT_of {w : Saw} (h : w.Lawful) (hst : w.st ≠ .indexWait) : w.idleSpinT = none :=
  Option.not_isSome_iff_eq_none.mp (fun k => hst (h.idleSpin k))

/-- At rest the outputs are off. -/
theorem Saw.Lawful.blade_of_rest {w : Saw} (h : w.Lawful)
    (hst : w.st ≠ .spinup ∧ w.st ≠ .cutting ∧ w.st ≠ .held ∧ w.st ≠ .indexWait) : w.blade = false := by
  obtain ⟨h1, h2, h3, h4⟩ := hst
  exact Bool.eq_false_iff.mpr (fun k => (h.driven k).elim h1 (fun k => k.elim h2 (fun k => k.elim h3 h4)))

theorem atLeast25_of_60 {g need : Nat} (h : atLeast60 g need = true) : atLeast25 g need = true := by
  simp only [atLeast60, atLeast25, decide_eq_true_eq] at h ⊢
  omega

namespace Blocks.Lawful

variable {sh : Shop} {b c : Blocks}

/-- A sequencer out of IDLE is at work on a plan. -/
theorem atWork (h : b.Lawful sh) (hst : b.saw.st ≠ .idle) : b.At b.saw.st sh := by
  have hplan := mirrors_at_work h.mirror hst
  refine ⟨rfl, ?_, h.grant, ?_, hplan⟩
  · obtain ⟨p, hp, _⟩ := hplan
    refine ((Blocks.restLaw_iff b).mp h.rest).resolve_right (fun k => ?_)
    exact Option.some_ne_none p (hp.symm.trans k.1)
  · have hlaw := h.saw.plan
    unfold Saw.planLaw at hlaw
    cases hp : b.saw.plan with
    | none =>
      rw [hp] at hlaw
      exact absurd (by simpa using hlaw) hst
    | some q =>
      rw [hp] at hlaw
      exact ⟨q, rfl, by simpa using hlaw⟩

theorem at_ {st : SawState} (h : b.Lawful sh) (hst : b.saw.st = st) (hi : st ≠ .idle) : b.At st sh := by
  subst hst
  exact h.atWork hi

end Blocks.Lawful

/-! ## The sequencer's own moves (08) -/

namespace Blocks.At

variable {st : SawState} {sh : Shop} {b : Blocks}

/-- A pulse of the feed (R143, R159). -/
theorem pulseBegins (h : b.At .cutting sh) (hw : b.saw.Lawful) : b.pulseBegins.Lawful sh := by
  have h1 : (b.onSaw (fun w => { w with cmd := w.cmd + 1, pulsePeriod := pulsePeriod w.feedRate })).At .cutting sh :=
    h.onSaw rfl rfl rfl
  unfold Blocks.pulseBegins
  dsimp only
  split
  · exact h1.fault .stall
  · exact h1.lawful { hw with }

end Blocks.At

end Sys2Proof.Machine

/-! The saw sequencer's own moves keep its laws (08, R142-R164): one lemma an operation. -/

namespace Sys2Proof.Machine

/-! ## The composed CONSUME -/

theorem Blocks.takeRemnants_stand (sh : Shop) (l : List Offcut) (acc : List Remnant × Blocks) :
    (l.foldl (fun a x => Blocks.takeRemnant sh x a) acc).2.saw = acc.2.saw ∧
      (l.foldl (fun a x => Blocks.takeRemnant sh x a) acc).2.planner = acc.2.planner := by
  induction l generalizing acc with
  | nil => exact ⟨rfl, rfl⟩
  | cons x rest ih => exact ih _

theorem Blocks.offerConsume_saw (sh : Shop) (b : Blocks) : (b.offerConsume sh).saw = b.saw := by
  unfold Blocks.offerConsume
  cases b.planner.plan with
  | none => rfl
  | some p => exact (by simpa using (Blocks.takeRemnants_stand sh _ ([], b)).1)

theorem Blocks.offerConsume_planner (sh : Shop) (b : Blocks) :
    (b.offerConsume sh).planner =
      { b.planner with plan := b.planner.plan.map (fun q => { q with keptConsume := !b.pres.mem.offers }) } := by
  unfold Blocks.offerConsume
  cases hp : b.planner.plan with
  | none =>
    rw [← hp]
    cases hb : b.planner
    rw [hb] at hp
    simp_all
  | some p =>
    have h := (Blocks.takeRemnants_stand sh (if p.abandoned then [] else remnantOffcuts p.offcuts) ([], b)).2
    simp [h, hp]

/-! ## A plan that is only marked -/

/-- The saw and the straps stand, an empty queue of pieces stays empty, and the plan's stage stands. -/
structure Blocks.Tuned (b c : Blocks) : Prop where
  saw : c.saw = b.saw
  pieces : b.planner.pieces = [] → c.planner.pieces = []
  noPlan : b.planner.plan = none → c.planner.plan = none
  staged : ∀ p, b.planner.plan = some p → ∃ q, c.planner.plan = some q ∧ p.Staged q
  station : c.pres.station = b.pres.station
  role : c.pres.role = b.pres.role
  mem : c.pres.mem = b.pres.mem

theorem Blocks.Tuned.onPlan {b : Blocks} {f : Plan → Plan} (hf : ∀ p, b.planner.plan = some p → p.Staged (f p)) :
    b.Tuned (b.onPlan f) :=
  ⟨rfl, id, fun h => by rw [Blocks.onPlan_planner, h]; rfl,
    fun p h => ⟨f p, by rw [Blocks.onPlan_planner, h]; rfl, hf p h⟩, rfl, rfl, rfl⟩

theorem Blocks.Tuned.offerConsume (sh : Shop) (b : Blocks) : b.Tuned (b.offerConsume sh) := by
  have t := (Tells.refl b).offerConsume sh
  have m := (Moves.refl false b).offerConsume sh
  have hp := Blocks.offerConsume_planner sh b
  refine ⟨Blocks.offerConsume_saw sh b, by rw [hp]; exact id, fun h => ?_, fun p h => ?_, t.station, t.role, m.mem rfl⟩
  · rw [hp, h]
    rfl
  · exact ⟨{ p with keptConsume := !b.pres.mem.offers }, by rw [hp, h]; rfl, rfl, rfl, .inl⟩

theorem Blocks.At.tuned {st : SawState} {sh : Shop} {b c : Blocks} (h : b.At st sh) (k : b.Tuned c) : c.At st sh := by
  obtain ⟨p, hp, hr, hk, hf⟩ := h.plan
  obtain ⟨q, hq, hs⟩ := k.staged p hp
  have hrel : q.releasing = false := hs.releasing.trans hr
  refine ⟨by rw [k.saw]; exact h.state, Blocks.saws_of h.saws k.role (by rw [k.mem]; exact id), ?_, by rw [k.saw]; exact h.copy,
    q, hq, hrel, ?_, by rw [hs.following]; exact hf⟩
  · rw [k.saw]
    exact h.grant.trans (effGrant_of_straps k.station k.role sh).symm
  · exact Bool.eq_false_iff.mpr (fun e => (hs.keptRelease e).elim (by simp [hk]) (by simp [hrel]))

theorem Blocks.Lawful.tuned {sh : Shop} {b c : Blocks} (h : b.Lawful sh) (k : b.Tuned c) : c.Lawful sh := by
  refine ⟨by rw [k.saw]; exact h.saw, ?_, ?_, ?_⟩
  · have hm := h.mirror
    rw [k.saw]
    cases hp : b.planner.plan with
    | none =>
      rw [hp] at hm
      rw [k.noPlan hp]
      exact hm
    | some p =>
      obtain ⟨q, hq, hs⟩ := k.staged p hp
      rw [hp] at hm
      rw [hq]
      exact hs.mirrors hm
  · rw [Blocks.restLaw_iff]
    exact ((Blocks.restLaw_iff b).mp h.rest).imp (fun hs => Blocks.saws_of hs k.role (by rw [k.mem]; exact id))
      (fun hn => ⟨k.noPlan hn.1, k.pieces hn.2⟩)
  · rw [k.saw]
    exact h.grant.trans (effGrant_of_straps k.station k.role sh).symm

namespace Blocks.At

variable {st : SawState} {sh : Shop} {b c : Blocks}

/-- With every output off, the sequencer meets its laws in every state but SPINUP and CUTTING. -/
theorem dark (h : b.At st sh) (hst : st ≠ .cutting ∧ st ≠ .spinup) (hblade : b.saw.blade = false)
    (hvalve : b.saw.valve = 0) (hfeed : b.saw.feedOn = false) (hspeed : b.saw.atSpeed = false)
    (hspin : b.saw.idleSpinT = none) : b.Lawful sh := by
  exact h.lawful
    { feed := by simp [hfeed]
      water := fun k => absurd (h.state ▸ k) (not_or.mpr hst)
      driven := by simp [hblade]
      runs := by simp [hblade]
      shut := fun _ => hvalve
      speed := by simp [hspeed]
      idleSpin := by simp [hspin]
      plan := h.planLaw }

/-- A report of the sequencer that leaves the stage of the plan. -/
theorem reported (h : b.At st sh) {f : Plan → Plan} (hf : ∀ p : Plan, p.Staged (f p)) : (b.onPlan f).At st sh :=
  h.tuned (Tuned.onPlan (fun p _ => hf p))

/-! ### The cuts (R152, R155, R157) -/

theorem enterFinishing (h : b.At st sh) (hfeed : b.saw.feedOn = false) (s : Shop) :
    (b.enterFinishing s).Lawful sh := by
  have h1 : (b.bladeOff.onSaw (fun w => { w with holdT := none, idleSpinT := none })).At st sh := h.bladeOff.onSaw rfl rfl rfl
  obtain ⟨p, hp, _⟩ := h.plan
  have hplan : b.bladeOff.planner.plan = some p := by rw [Blocks.bladeOff_planner, hp]
  have h2 := h1.enter .finishing (by decide)
  have hlaw := h2.dark (by decide) (by simp [Blocks.sawEnter_saw]) (by simp [Blocks.sawEnter_saw])
    (by simp [Blocks.sawEnter_saw, hfeed]) (by simp [Blocks.sawEnter_saw]) (by simp [Blocks.sawEnter_saw])
  unfold Blocks.enterFinishing Blocks.reportFinishing
  simp only [Blocks.onSaw_planner, hplan]
  split
  · exact hlaw.tuned (Tuned.onPlan (fun _ _ => ⟨rfl, rfl, .inl⟩))
  · exact hlaw.tuned (Tuned.offerConsume s _)

/-- The current cut is completed: INDEX_WAIT keeps the outputs of CUTTING but the feed (R155, R156). -/
theorem completeCut (h : b.At .cutting sh) (hw : b.saw.Lawful) (s : Shop) : (b.completeCut s).Lawful sh := by
  obtain ⟨q, hq, hn⟩ := h.copy
  unfold Blocks.completeCut
  split
  case h_2 => exact h.lawful hw
  next c p hc hp =>
    obtain rfl : q = p := Option.some.inj (hq.symm.trans hp)
    have h1 : (b.feedOff.onSaw (fun w => { w with plan := some { q with cuts := markDone b.saw.cur q.cuts } })).At .cutting sh :=
      { h with copy := ⟨_, rfl, hn⟩ }
    have h2 := ((h1.reported (f := fun p => { p with
        cuts := markDone b.saw.cur p.cuts, placements := markPlacements (markDone b.saw.cur p.cuts) p.placements })
      (fun _ => ⟨rfl, rfl, .inl⟩)).outside ((Outside.refl _).onCost (CostUnit.chargeFace c.job (c.length * q.thickness)))).outside
        ((Outside.refl _).post (.cutDone b.saw.cur c.kind c.job))
    dsimp only
    split
    · have h3 := (h2.onSaw (f := fun w => { w with idleSpinT := b.after 20000 }) rfl rfl rfl).enter .indexWait (by decide)
      refine h3.lawful ?_
      have hneed : b.saw.need = q.need := by simp [Saw.need, hq]
      have hruns := hw.runs
      rw [hneed] at hruns
      constructor <;> simp only [Blocks.sawEnter_saw, Blocks.onSaw_saw, Blocks.post_saw, Blocks.onCost_saw,
        Blocks.onPlan_saw, Blocks.feedOff]
      · simp
      · simp
      · simp
      · exact hruns
      · exact hw.shut
      · exact hw.speed
      · simp
      · simpa [Saw.planLaw] using hn
    · exact h2.enterFinishing (by simp [Blocks.feedOff]) s

theorem enterCutting (h : b.At st sh) (hblade : b.saw.blade = true) (h60 : atLeast60 b.saw.grant b.saw.need = true)
    (s : Shop) : (b.enterCutting s).Lawful sh := by
  have h1 := ((h.onSaw (f := fun w => { w with holdT := none, idleSpinT := none, started := true }) rfl rfl rfl).enter
    .cutting (by decide)).reported (f := fun p => { p with started := true }) (fun _ => ⟨rfl, rfl, .inl⟩)
  have hlaw := h1.on (by simpa [Blocks.sawEnter_saw] using hblade)
    (by rw [Blocks.onPlan_saw, Blocks.sawEnter_saw]; exact atLeast25_of_60 h60) (.inr (.inl rfl))
    (fun _ => by rw [Blocks.onPlan_saw, Blocks.sawEnter_saw]; exact h60) (fun _ => rfl) (by simp [Blocks.sawEnter_saw])
  unfold Blocks.enterCutting
  dsimp only
  split
  · exact h1.valveAtGrant.completeCut hlaw.saw s
  · refine (h1.valveAtGrant.onSaw (f := fun w => { w with feedRate := _, feedOn := true }) rfl rfl rfl).pulseBegins ?_
    exact { hlaw.saw with feed := fun _ => h1.valveAtGrant.state }

/-! ### Spinning up and waiting for water (R150, R151) -/

theorem enterSpinup (h : b.At st sh) (h60 : atLeast60 b.saw.grant b.saw.need = true) (hfeed : b.saw.feedOn = false)
    (hspin : b.saw.idleSpinT = none) (s : Shop) : (b.enterSpinup s).Lawful sh := by
  have h1 := (h.onSaw (f := fun w => { w with holdT := none }) rfl rfl rfl).enter .spinup (by decide)
  have hsaw : ((b.onSaw (fun w => { w with holdT := none })).sawEnter .spinup).saw =
      { b.saw with holdT := none, st := .spinup } := by rw [Blocks.sawEnter_saw, Blocks.onSaw_saw]
  have k60 : atLeast60 ((b.onSaw (fun w => { w with holdT := none })).sawEnter .spinup).saw.grant
      ((b.onSaw (fun w => { w with holdT := none })).sawEnter .spinup).saw.need = true := by rw [hsaw]; exact h60
  have kfeed : ((b.onSaw (fun w => { w with holdT := none })).sawEnter .spinup).saw.feedOn = false := by rw [hsaw]; exact hfeed
  have kspin : ((b.onSaw (fun w => { w with holdT := none })).sawEnter .spinup).saw.idleSpinT = none := by
    rw [hsaw]
    exact hspin
  unfold Blocks.enterSpinup
  dsimp only
  split
  next hblade =>
    split
    · exact h1.enterCutting hblade k60 s
    · exact h1.on hblade (atLeast25_of_60 k60) (.inl rfl) (fun _ => k60)
        (fun k => absurd (kfeed.symm.trans k) Bool.false_ne_true) (by simp [kspin])
  next =>
    split
    · exact h1.fault .stop
    · exact h1.turnOn (atLeast25_of_60 k60) (.inl rfl) (fun _ => k60) kfeed kspin

theorem enterWaterWait (h : b.At st sh) (s : Shop) : (b.enterWaterWait s).Lawful sh := by
  have h0 : b.feedOff.At st sh := h.onSaw rfl rfl rfl
  have h1 := (h0.bladeOff.onSaw (f := fun w =>
    { w with idleSpinT := none, holdT := if w.started then b.after 30000 else none }) rfl rfl rfl).enter .waterWait (by decide)
  unfold Blocks.enterWaterWait
  dsimp only
  split
  next h60 =>
    exact h1.enterSpinup h60 (by simp [Blocks.sawEnter_saw, Blocks.feedOff]) (by simp [Blocks.sawEnter_saw]) s
  next =>
    exact h1.dark (by decide) (by simp [Blocks.sawEnter_saw]) (by simp [Blocks.sawEnter_saw])
      (by simp [Blocks.sawEnter_saw, Blocks.feedOff]) (by simp [Blocks.sawEnter_saw]) (by simp [Blocks.sawEnter_saw])

theorem enterHeld (h : b.At st sh) (hblade : b.saw.blade = true) (hspin : b.saw.idleSpinT = none) :
    b.enterHeld.Lawful sh := by
  have h0 : b.feedOff.At st sh := h.onSaw rfl rfl rfl
  have h1 := (h0.onSaw (f := fun w => { w with holdT := b.after 30000 }) rfl rfl rfl).enter .held (by decide)
  unfold Blocks.enterHeld
  dsimp only
  split
  next h25 =>
    exact h1.on (by simpa [Blocks.sawEnter_saw, Blocks.feedOff] using hblade) h25 (.inr (.inr (.inl rfl))) (by simp)
      (by simp [Blocks.sawEnter_saw, Blocks.feedOff]) (by simp [Blocks.sawEnter_saw, Blocks.feedOff, hspin])
  next =>
    exact h1.off (by decide) (by simp [Blocks.sawEnter_saw, Blocks.feedOff])
      (.inl (by simp [Blocks.sawEnter_saw, Blocks.feedOff, hspin]))

end Blocks.At

/-! ## The grant (R149, R153, R156) -/

namespace Blocks.Lawful

variable {sh : Shop} {b : Blocks}

/-- With the blade off, and neither SPINUP nor CUTTING, a new grant moves no output. -/
theorem grantAtRest {sh0 : Shop} (h : b.Lawful sh0) (hst : b.saw.st ≠ .cutting ∧ b.saw.st ≠ .spinup)
    (hblade : b.saw.blade = false) : (b.onSaw (fun w => { w with grant := effGrant sh b })).Lawful sh :=
  { saw := { h.saw with
      water := fun k => absurd k (not_or.mpr hst)
      runs := fun k => absurd (hblade.symm.trans k) Bool.false_ne_true }
    mirror := h.mirror
    rest := h.rest
    grant := rfl }

/-- The sequencer at work takes a new grant. -/
theorem granted {sh0 : Shop} (h : b.Lawful sh0) {st : SawState} (hst : b.saw.st = st) (hi : st ≠ .idle) :
    (b.onSaw (fun w => { w with grant := effGrant sh b })).At st sh :=
  { h.at_ hst hi with grant := rfl }

theorem grantInHeld {sh0 : Shop} (h : b.Lawful sh0) (hst : b.saw.st = .held) (s : Shop) :
    ((b.onSaw (fun w => { w with grant := effGrant sh b })).grantInHeld s).Lawful sh := by
  have h1 := h.granted (sh := sh) hst (by decide)
  have hfeed : b.saw.feedOn = false := h.saw.feedOn_of_not_cutting (by simp [hst])
  have hspin : b.saw.idleSpinT = none := h.saw.idleSpinT_of (by simp [hst])
  unfold Blocks.grantInHeld
  split
  next h60 =>
    split
    next hspeed => exact h1.enterCutting (h.saw.speed hspeed) h60 s
    next => exact h1.enterSpinup h60 hfeed hspin s
  next =>
    split
    next h25 =>
      split
      next hblade =>
        exact h1.on hblade h25 (.inr (.inr (.inl rfl))) (by simp)
          (fun k => absurd (hfeed.symm.trans k) Bool.false_ne_true) (by simp [hspin])
      next =>
        split
        · exact h1.fault .stop
        · exact h1.turnOn h25 (.inr rfl) (by simp) hfeed hspin
    next => exact h1.off (by decide) hfeed (.inl hspin)

theorem grantMoves {sh0 : Shop} (h : b.Lawful sh0) (s : Shop) :
    ((b.onSaw (fun w => { w with grant := effGrant sh b })).grantMoves s).Lawful sh := by
  have hfeed : b.saw.st ≠ .cutting → b.saw.feedOn = false := h.saw.feedOn_of_not_cutting
  have hspin : b.saw.st ≠ .indexWait → b.saw.idleSpinT = none := h.saw.idleSpinT_of
  unfold Blocks.grantMoves
  rw [Blocks.onSaw_saw]
  cases hst : b.saw.st <;> dsimp only
  case idle | loadWait | finishing | faulted =>
    exact h.grantAtRest (by simp [hst]) (h.saw.blade_of_rest (by simp [hst]))
  case waterWait =>
    split
    next h60 => exact (h.granted hst (by decide)).enterSpinup h60 (hfeed (by simp [hst])) (hspin (by simp [hst])) s
    next => exact h.grantAtRest (by simp [hst]) (h.saw.blade_of_rest (by simp [hst]))
  case spinup =>
    have h1 := h.granted (sh := sh) hst (by decide)
    split
    next h60 =>
      exact h1.on (h.saw.water (.inr hst)).1 (atLeast25_of_60 h60) (.inl rfl) (fun _ => h60)
        (by simp [hfeed, hst]) (by simp [hspin, hst])
    next => exact h1.enterWaterWait s
  case cutting =>
    have h1 := h.granted (sh := sh) hst (by decide)
    have hblade := (h.saw.water (.inl hst)).1
    split
    next h60 =>
      have h2 := h1.onSaw (f := fun w => { w with feedRate := (b.onSaw (fun w => { w with grant := effGrant sh b })).rateNow })
        rfl rfl rfl
      exact h2.on hblade (atLeast25_of_60 h60) (.inr (.inl rfl)) (fun _ => h60) (fun _ => rfl) (by simp [hspin, hst])
    next => exact h1.enterHeld hblade (hspin (by simp [hst]))
  case held => exact h.grantInHeld hst s
  case indexWait =>
    have h1 := h.granted (sh := sh) hst (by decide)
    split
    next hblade =>
      split
      next h25 =>
        exact h1.on hblade h25 (.inr (.inr (.inr rfl))) (by simp) (by simp [hfeed, hst]) (fun _ => rfl)
      next =>
        have h2 := h1.bladeOff.onSaw (f := fun w => { w with idleSpinT := none }) rfl rfl rfl
        exact h2.dark (by decide) (by simp) (by simp) (by simp [hfeed, hst]) (by simp) (by simp)
    next hblade => exact h.grantAtRest (by simp [hst]) (by simpa using hblade)

/-- The grant follows the replica (R100, R149): the sequencer keeps its laws while a new effective grant moves it. -/
theorem setGrant {sh0 : Shop} (h : b.Lawful sh0) (s : Shop) : (b.setGrant s (effGrant sh b)).Lawful sh := by
  unfold Blocks.setGrant
  split
  next hg => exact { h with grant := hg }
  next => exact h.grantMoves s

theorem grantReport {sh0 : Shop} (h : b.Lawful sh0) {before : Nat} (hbefore : b.saw.grant = before) (s : Shop) (hs : effGrant s b = effGrant sh b) :
    (b.grantReport before s).Lawful sh := by
  unfold Blocks.grantReport
  rw [hs]
  split
  next hg => exact { h with grant := hbefore.trans hg.symm }
  next => exact (h.setGrant s).outside ((Outside.refl _).post _)

end Blocks.Lawful

end Sys2Proof.Machine

/-! The planner's moves keep the laws of the saw (07, R119-R140): what the planner tells the sequencer, and the stages that
its plan takes by itself. -/

namespace Sys2Proof.Machine

/-- A plan on which looks run (R131, log 16). -/
theorem Plan.open_iff (q : Plan) : q.open_ = true ↔ q.state = .planning ∧ q.releasing = false := by simp [Plan.open_]

/-! ## The sequencer told by the planner, the host and the measurement unit -/

/-- The saw and the straps stand. -/
structure Blocks.SawAside (b c : Blocks) : Prop where
  saw : c.saw = b.saw
  station : c.pres.station = b.pres.station
  role : c.pres.role = b.pres.role
  mem : c.pres.mem = b.pres.mem

namespace Blocks.SawAside

variable {a b c : Blocks}

theorem refl (b : Blocks) : b.SawAside b := ⟨rfl, rfl, rfl, rfl⟩

theorem trans (h : a.SawAside b) (k : b.SawAside c) : a.SawAside c :=
  ⟨k.saw.trans h.saw, k.station.trans h.station, k.role.trans h.role, k.mem.trans h.mem⟩

theorem outside (h : a.SawAside b) (k : b.Outside c) : a.SawAside c :=
  h.trans ⟨k.saw, by rw [k.pres], by rw [k.pres], by rw [k.pres]⟩

theorem onPlanner (h : a.SawAside b) (f : Planner → Planner) : a.SawAside (b.onPlanner f) := h.trans ⟨rfl, rfl, rfl, rfl⟩

theorem onPlan (h : a.SawAside b) (f : Plan → Plan) : a.SawAside (b.onPlan f) := h.trans ⟨rfl, rfl, rfl, rfl⟩

theorem setPlan (h : a.SawAside b) (p : Option Plan) : a.SawAside (b.setPlan p) := h.trans ⟨rfl, rfl, rfl, rfl⟩

theorem setSealT (h : a.SawAside b) (t : Option Nat) : a.SawAside (b.setSealT t) := h.onPlanner _

end Blocks.SawAside

/-- The sequencer is IDLE and meets its laws; the plan may be about to end. -/
structure Blocks.Idle (sh : Shop) (b : Blocks) : Prop where
  state : b.saw.st = .idle
  saw : b.saw.Lawful
  saws : b.saws = true
  grant : b.saw.grant = effGrant sh b

namespace Blocks.Idle

variable {sh : Shop} {b c : Blocks}

theorem aside (h : b.Idle sh) (k : b.SawAside c) : c.Idle sh :=
  { state := by rw [k.saw]; exact h.state
    saw := by rw [k.saw]; exact h.saw
    saws := Blocks.saws_of h.saws k.role (by rw [k.mem]; exact id)
    grant := by rw [k.saw]; exact h.grant.trans (effGrant_of_straps k.station k.role sh).symm }

theorem lawful (h : b.Idle sh) (hm : mirrors b.planner.plan .idle = true) : b.Lawful sh :=
  ⟨h.saw, by rw [h.state]; exact hm, (Blocks.restLaw_iff b).mpr (.inl h.saws), h.grant⟩

end Blocks.Idle

/-- The sequencer returns to IDLE from a state at rest (R157, R162). -/
theorem Saw.Lawful.returns {w : Saw} (h : w.Lawful) (hst : w.st = .loadWait ∨ w.st = .faulted ∨ w.st = .finishing) :
    { w with st := .idle, fault := none, plan := none, cur := 0, entered := false, resumeCut := 0,
             resumeEntered := false : Saw }.Lawful := by
  have hblade : w.blade = false := h.blade_of_rest (by rcases hst with e | e | e <;> simp [e])
  have hfeed : w.feedOn = false := h.feedOn_of_not_cutting (by rcases hst with e | e | e <;> simp [e])
  have hspin : w.idleSpinT = none := h.idleSpinT_of (by rcases hst with e | e | e <;> simp [e])
  exact
    { feed := by simp [hfeed]
      water := by simp
      driven := by simp [hblade]
      runs := by simp [hblade]
      shut := h.shut
      speed := h.speed
      idleSpin := by simp [hspin]
      plan := rfl }

namespace Blocks

variable {sh : Shop} {b c : Blocks}

/-- The saw and the straps of a sequencer that is to return to IDLE. -/
theorem Lawful.sawIdle (h : b.Lawful sh) (hst : b.saw.st = .loadWait ∨ b.saw.st = .faulted ∨ b.saw.st = .finishing) :
    b.sawIdle.Idle sh :=
  ⟨rfl, h.saw.returns hst, (h.atWork (by rcases hst with e | e | e <;> simp [e])).saws, h.grant⟩

theorem Idle.startDrop (h : b.Idle sh) : b.startDrop.Idle sh := by
  unfold Blocks.startDrop
  split
  · exact ⟨h.state, { h.saw with }, h.saws, h.grant⟩
  · exact h

theorem sawWithdrawn_planner (b : Blocks) : b.sawWithdrawn.planner = b.planner := by
  unfold Blocks.sawWithdrawn
  repeat' split
  · rfl
  · exact Blocks.startDrop_planner _
  · rfl

/-- Withdrawn, the sequencer is IDLE (R162). -/
theorem Lawful.sawWithdrawn (h : b.Lawful sh) (hs : b.saws = true)
    (hst : b.saw.st = .loadWait ∨ b.saw.st = .faulted ∨ b.saw.st = .idle) : b.sawWithdrawn.Idle sh := by
  unfold Blocks.sawWithdrawn
  split
  next hw =>
    have h1 := h.sawIdle (hw.imp_right .inl)
    split
    · exact h1
    · exact h1.startDrop
  next hw => exact ⟨(hst.resolve_left (fun k => hw (.inl k))).resolve_left (fun k => hw (.inr k)), h.saw, hs, h.grant⟩

theorem Bound.sawSlabLost (h : b.Bound sh) (hw : b.saw.Lawful) (hi : b.saw.st ≠ .idle) : b.sawSlabLost.Lawful sh := by
  unfold Blocks.sawSlabLost
  cases hst : b.saw.st <;> dsimp only
  case idle => exact absurd hst hi
  case faulted =>
    obtain ⟨p, hp, hr, hk⟩ := h.plan
    refine ⟨{ hw with }, ?_, (Blocks.restLaw_iff _).mpr (.inl h.saws), h.grant⟩
    unfold Blocks.reportFault
    rw [Blocks.onPlan_planner, Blocks.onPlan_saw, Blocks.onSaw_planner, hp]
    show mirrors (some { p.mirror .faulted with fault := some .slabLost }) b.saw.st = true
    rw [mirrors_some_iff, hst]
    show ((p.mirror .faulted).keptRelease = true → (p.mirror .faulted).releasing = true) ∧
      (if (p.mirror .faulted).releasing then SawState.faulted = .idle else (p.mirror .faulted).following.allows .faulted = true)
    rw [(p.mirror_marks _).1, (p.mirror_marks _).2, hr, hk, Plan.following_mirror hr (by decide)]
    exact ⟨id, rfl⟩
  all_goals exact h.fault .slabLost

namespace Lawful

theorem saws_of_plan (h : b.Lawful sh) {p : Plan} (hp : b.planner.plan = some p) : b.saws = true :=
  ((Blocks.restLaw_iff b).mp h.rest).resolve_right (fun k => Option.some_ne_none p (hp.symm.trans k.1))

theorem idle_of_no_plan (h : b.Lawful sh) (hp : b.planner.plan = none) : b.saw.st = .idle := by
  have hm := h.mirror
  rw [hp] at hm
  exact eq_of_beq hm

/-- The plan is replaced, and mirrors the sequencer. -/
theorem replan (h : b.Lawful sh) (k : b.SawAside c) (hs : b.saws = true)
    (hm : mirrors c.planner.plan b.saw.st = true) : c.Lawful sh :=
  ⟨by rw [k.saw]; exact h.saw, by rw [k.saw]; exact hm,
    (Blocks.restLaw_iff c).mpr (.inl (Blocks.saws_of hs k.role (by rw [k.mem]; exact id))),
    by rw [k.saw]; exact h.grant.trans (effGrant_of_straps k.station k.role sh).symm⟩

/-- While the plan is at a stage that has nothing to saw, or is being released, the sequencer is IDLE (R124). -/
theorem idle_of_stage (h : b.Lawful sh) {p : Plan} (hp : b.planner.plan = some p)
    (hst : p.releasing = true ∨ p.following = .claiming ∨ p.following = .planning) : b.Idle sh := by
  refine ⟨?_, h.saw, h.saws_of_plan hp, h.grant⟩
  have hm := h.mirror
  rw [hp] at hm
  have hf := ((mirrors_some_iff p _).mp hm).2
  cases hr : p.releasing with
  | true =>
    rw [hr] at hf
    exact hf
  | false =>
    rw [hr] at hf
    rcases hst.resolve_left (by simp [hr]) with e | e
    all_goals
      rw [e] at hf
      exact eq_of_beq hf

/-- A jam, a dry valve and the load derate flag (R152, R160). -/
theorem tellJam (h : b.Lawful sh) : b.tellJam.Lawful sh := by
  unfold Blocks.tellJam
  split
  next hb =>
    refine (h.atWork (fun k => ?_)).fault .jam
    have hd := h.saw.driven hb
    simp [k] at hd
  next => exact h

theorem tellDry (h : b.Lawful sh) : b.tellDry.Lawful sh := by
  unfold Blocks.tellDry
  split
  next hv =>
    have hb : b.saw.blade = true := by
      by_contra hb
      have := h.saw.shut (by simpa using hb)
      omega
    refine (h.atWork (fun k => ?_)).fault .dry
    have hd := h.saw.driven hb
    simp [k] at hd
  next => exact h

theorem tellDerate (h : b.Lawful sh) : b.tellDerate.Lawful sh := by
  unfold Blocks.tellDerate
  split
  · exact { h with saw := { h.saw with } }
  · exact h

/-- GO in LOAD_WAIT (R146). -/
theorem goLoad (h : b.Lawful sh) (hst : b.saw.st = .loadWait) (s : Shop) : (b.goLoad s).Lawful sh := by
  have h1 := h.at_ hst (by decide)
  unfold Blocks.goLoad
  split
  · exact h
  · split
    · have h2 := (h1.onSaw (f := fun w => { w with dropT := none }) rfl rfl rfl).outside
        ((Outside.refl _).withdraw .saw isFlowDrop)
      exact h2.enterFinishing (h.saw.feedOn_of_not_cutting (by simp [hst])) s
    · have h2 := (h1.onSaw (f := fun w => { w with cur := 1, entered := true, enc := 0, cmd := 0 }) rfl rfl rfl).onSaw
        (f := fun w => { w with waterWanted := true, dropT := none }) rfl rfl rfl
      exact (h2.outside (((Outside.refl _).withdraw .saw isFlowDrop).askCheck s)).enterWaterWait s

/-- GO in INDEX_WAIT (R146). -/
theorem goIndex (h : b.Lawful sh) (hst : b.saw.st = .indexWait) (s : Shop) : (b.goIndex s).Lawful sh := by
  have h1 := h.at_ hst (by decide)
  have hfeed : b.saw.feedOn = false := h.saw.feedOn_of_not_cutting (by simp [hst])
  unfold Blocks.goIndex
  split
  · exact h
  next n hn =>
    have h2 := ((h1.onSaw (f := fun w => { w with idleSpinT := none }) rfl rfl rfl).onSaw
      (f := fun w => { w with cur := n, entered := true, enc := 0, cmd := 0 }) rfl rfl rfl).onSaw
      (f := fun w => { w with waterWanted := true, dropT := none }) rfl rfl rfl
    have k := ((Outside.refl (((b.onSaw (fun w => { w with idleSpinT := none })).enterCut n).onSaw
      (fun w => { w with waterWanted := true, dropT := none }))).withdraw .saw isFlowDrop).askCheck s
    have h3 := h2.outside k
    dsimp only
    split
    next h60 =>
      split
      next hspeed =>
        refine h3.enterCutting ?_ h60 s
        rw [show (((b.onSaw (fun w => { w with idleSpinT := none })).enterCut n).wantWater s).saw = _ from k.saw] at hspeed
        rw [k.saw]
        exact h.saw.speed hspeed
      next => exact h3.enterSpinup h60 (by rw [k.saw]; exact hfeed) (by rw [k.saw]; rfl) s
    next => exact h3.enterWaterWait s

/-- RESUME (R163). -/
theorem sawResume (h : b.Lawful sh) (hst : b.saw.st = .faulted) (s : Shop) : (b.sawResume s).Lawful sh := by
  have h1 := h.at_ hst (by decide)
  unfold Blocks.sawResume Blocks.wantWater
  dsimp only
  refine Blocks.At.enterWaterWait (st := .faulted) (.outside ?_ (((Outside.refl _).withdraw .saw isFlowDrop).askCheck s)) s
  refine Blocks.At.onSaw (.onSaw ?_ rfl rfl rfl) rfl rfl rfl
  split
  · exact h1.onSaw rfl rfl rfl
  · exact h1.onSaw rfl rfl rfl

/-! ## Search (R125, R126) -/

theorem search (h : b.Lawful sh) (s : Shop) : (b.search s).Lawful sh := by
  unfold Blocks.search
  split
  next hc =>
    simp only [Bool.and_eq_true, Option.isNone_iff_eq_none, Bool.not_eq_true'] at hc
    obtain ⟨⟨⟨hs, hp⟩, _⟩, _⟩ := hc
    have hm := h.mirror
    dsimp only
    split
    · refine h.replan (((SawAside.refl b).onPlanner _).outside ((Outside.refl _).postAll _)) hs ?_
      rw [((Outside.refl _).postAll _).planner]
      exact hm
    · refine h.replan (((((SawAside.refl b).onPlanner _).outside (((Outside.refl _).postAll _).onCost _)).setPlan _).outside
        ((Outside.refl _).offer _ _)) hs ?_
      rw [Blocks.offer_planner, h.idle_of_no_plan hp]
      rfl
  next => exact h

end Lawful

/-- The plan ends while the sequencer is IDLE (R125). -/
theorem Idle.planEnds (h : b.Idle sh) (s : Shop) : (b.planEnds s).Lawful sh := by
  have k := (((SawAside.refl b).setPlan none).setSealT none).outside ((Outside.refl _).costPlanEnded s)
  refine ((h.aside k).lawful ?_).search s
  rw [((Outside.refl ((b.setPlan none).setSealT none)).costPlanEnded s).planner]
  rfl

theorem Idle.claimFails (h : b.Idle sh) (s : Shop) (p : Plan) : (b.claimFails s p).Lawful sh :=
  (h.aside ((SawAside.refl b).outside ((Outside.refl b).onCost _))).planEnds s

/-- The release of a plan that has nothing to saw (R128, R136). -/
theorem Idle.offerRelease (h : b.Idle sh) : b.offerRelease.Lawful sh := by
  unfold Blocks.offerRelease
  cases hp : b.planner.plan with
  | none => exact h.lawful (by rw [hp]; rfl)
  | some p =>
    refine (h.aside (((SawAside.refl b).onPlan _).outside ((Outside.refl _).offer _ _))).lawful ?_
    rw [Blocks.offer_planner, Blocks.onPlan_planner, hp]
    exact (mirrors_some_iff _ _).mpr ⟨fun _ => rfl, rfl⟩

namespace Tuned

theorem setSealT (b : Blocks) (t : Option Nat) : b.Tuned (b.setSealT t) :=
  ⟨rfl, id, id, fun p h => ⟨p, h, .refl p⟩, rfl, rfl, rfl⟩

theorem placePiece (p : Piece) (i : Nat) (x : Offcut) (b : Blocks) : b.Tuned (b.placePiece p i x) := by
  unfold Blocks.placePiece
  cases hp : b.planner.plan with
  | none => exact ⟨rfl, id, id, fun q h => ⟨q, h, .refl q⟩, rfl, rfl, rfl⟩
  | some q =>
    refine ⟨by simp, ?_, fun h => absurd (hp.symm.trans h) (by simp), fun r h => ?_, by simp, by simp, by simp⟩
    · intro h
      simp [h]
    · obtain rfl : q = r := Option.some.inj (hp.symm.trans h)
      exact ⟨q.place p i x, by simp, rfl, rfl, .inl⟩

end Tuned

/-- The plan faults with SLAB_LOST, before the sequencer is told (R135). -/
def lostSlab (b : Blocks) : Blocks :=
  (b.onPlan (fun p => { p with state := .faulted, fault := some .slabLost, keptConsume := false })).post
    (.planFault .slabLost (if b.saw.st = .faulted then b.saw.resumeCut else b.saw.cur) b.saw.enc)

theorem planSlabLost_eq (b : Blocks) : b.planSlabLost = b.lostSlab.sawSlabLost := rfl

theorem SawAside.lostSlab (b : Blocks) : b.SawAside b.lostSlab :=
  ((SawAside.refl b).onPlan _).outside ((Outside.refl _).post _)

theorem sawSlabLost_idle (h : b.saw.st = .idle) : b.sawSlabLost = b := by
  unfold Blocks.sawSlabLost
  rw [h]

namespace Lawful

/-! ## Looks and sealing (R131, R132) -/

/-- A plan in PLANNING is sealed and taken up: LOAD_WAIT (R132, R145). -/
theorem sealNow (h : b.Lawful sh) {q : Plan} (hp : b.planner.plan = some q) (ho : q.open_ = true) :
    b.sealNow.Lawful sh := by
  obtain ⟨hstate, hrel⟩ := (Plan.open_iff q).mp ho
  have hidle := h.idle_of_stage hp (.inr (.inr (by simp [Plan.following, hstate])))
  have hblade : b.saw.blade = false := h.saw.blade_of_rest (by simp [hidle.state])
  have hkept : q.keptRelease = false := by
    have hm := h.mirror
    rw [hp] at hm
    exact Bool.eq_false_iff.mpr (fun k => by simpa [hrel] using ((mirrors_some_iff q _).mp hm).1 k)
  unfold Blocks.sealNow Blocks.takeUp
  rw [hp]
  dsimp only
  have k : b.SawAside ((((b.setSealT none).onPlan (fun q => { q with state := .sealed })).post
      (.planSealed q.slab q.placements.length q.cuts.length))) :=
    (((SawAside.refl b).setSealT none).onPlan _).outside ((Outside.refl _).post _)
  have h1 := hidle.aside k
  refine Blocks.At.dark (st := .loadWait) (Bound.enter (?_ : Bound sh _) .loadWait (by decide)) (by decide) ?_ ?_ ?_ ?_ ?_
  · exact ⟨h1.saws, h1.grant, ⟨_, rfl, rfl⟩, { q with state := .sealed }, by simp [hp], hrel, hkept⟩
  all_goals simp only [Blocks.sawEnter_saw, Blocks.onSaw_saw, k.saw]
  · exact hblade
  · exact h.saw.shut hblade
  · exact h.saw.feedOn_of_not_cutting (by simp [hidle.state])
  · exact Bool.eq_false_iff.mpr (fun e => Bool.false_ne_true (hblade.symm.trans (h.saw.speed e)))
  · exact h.saw.idleSpinT_of (by simp [hidle.state])

theorem lookUpTo (s : Shop) (n : Nat) : ∀ {b : Blocks}, b.Lawful sh → (b.lookUpTo s n).Lawful sh := by
  induction n with
  | zero => exact id
  | succ n ih =>
    intro b h
    unfold Blocks.lookUpTo
    split
    · exact h
    next q hp =>
      split
      next hc =>
        have ho : q.open_ = true := by simp_all
        split
        · exact h.sealNow hp ho
        · dsimp only
          split
          · exact ih ((h.outside ((Outside.refl b).onCost _)).tuned (.placePiece _ _ _ _))
          · repeat' split
            · exact h
            · exact h.tuned (.setSealT b _)
            · exact h.sealNow hp ho
      next => exact h

theorem look (h : b.Lawful sh) (s : Shop) : (b.look s).Lawful sh := by
  unfold Blocks.look
  split
  · exact lookUpTo s 7 h
  · exact h

theorem searchOrLook (h : b.Lawful sh) (s : Shop) : (b.searchOrLook s).Lawful sh := (h.search s).look s

/-! ## The outcomes of its own frames (R127, R128, R135, R136, R139) -/

/-- SLAB_LOST stops the sequencer, whatever it was at (R135, R162). -/
theorem planSlabLost (h : b.Lawful sh) : b.planSlabLost.Lawful sh := by
  have hs := SawAside.lostSlab b
  rw [planSlabLost_eq]
  by_cases hi : b.saw.st = .idle
  · rw [sawSlabLost_idle (by rw [hs.saw]; exact hi)]
    have hm := h.mirror
    cases hp : b.planner.plan with
    | none => exact h.tuned ⟨hs.saw, by simp [lostSlab], by simp [lostSlab], by simp [hp], hs.station, hs.role, hs.mem⟩
    | some p =>
      rw [hp] at hm
      refine h.replan hs (h.saws_of_plan hp) ?_
      rw [lostSlab, Blocks.post_planner, Blocks.onPlan_planner, hp, hi]
      refine (mirrors_some_iff _ _).mpr ⟨((mirrors_some_iff p _).mp hm).1, ?_⟩
      simp [Plan.following, PlanState.allows]
  · have h1 := h.atWork hi
    obtain ⟨p, hp, hr, hk, _⟩ := h1.plan
    refine Bound.sawSlabLost ?_ (by rw [hs.saw]; exact h.saw) (by rw [hs.saw]; exact hi)
    exact ⟨Blocks.saws_of h1.saws hs.role (by rw [hs.mem]; exact id),
      by rw [hs.saw]; exact h.grant.trans (effGrant_of_straps hs.station hs.role sh).symm, by rw [hs.saw]; exact h1.copy,
      { p with state := .faulted, fault := some .slabLost, keptConsume := false }, by simp [lostSlab, hp], hr, hk⟩

theorem firstPlacement (h : b.Lawful sh) (hi : b.saw.st = .idle) (s : Shop) (p : Plan) :
    (b.firstPlacement s p).Lawful sh := by
  unfold Blocks.firstPlacement
  split
  · exact h
  next q hp =>
    split
    · split
      · exact ((h.outside ((Outside.refl b).onCost _)).tuned (.placePiece _ _ _ _)).look s
      · exact h.look s
    · split
      · exact (((h.outside ((Outside.refl b).onCost _)).tuned (.placePiece _ _ _ _)).outside ((Outside.refl _).onCost _)).look s
      · exact (Idle.offerRelease ⟨hi, h.saw, h.saws_of_plan hp, h.grant⟩).outside ((Outside.refl _).onCost _)

theorem claimOutcome (h : b.Lawful sh) (s : Shop) (i : SlabId) (taken : Bool) :
    (b.claimOutcome s i taken).Lawful sh := by
  unfold Blocks.claimOutcome
  split
  · exact h
  next p hp =>
    split
    next hc =>
      have hidle := h.idle_of_stage hp (.inr (.inl (by simp [Plan.following, hc.1])))
      split
      · refine firstPlacement (h.replan ((SawAside.refl b).onPlan _) hidle.saws ?_) hidle.state s p
        have hm := h.mirror
        rw [hp, hidle.state] at hm
        rw [Blocks.onPlan_planner, hp, hidle.state]
        refine (mirrors_some_iff _ _).mpr ⟨((mirrors_some_iff p _).mp hm).1, ?_⟩
        simp [Plan.following, PlanState.allows]
      · exact hidle.claimFails s p
    next => exact h

theorem withdrawClaim (h : b.Lawful sh) {q : Plan} (hp : b.planner.plan = some q) (hq : q.state = .claiming) (s : Shop)
    (p : Plan) : (b.withdrawClaim s p).Lawful sh := by
  have hidle := h.idle_of_stage hp (.inr (.inl (by simp [Plan.following, hq])))
  unfold Blocks.withdrawClaim
  dsimp only
  split
  · exact (hidle.aside ((SawAside.refl b).outside ((Outside.refl b).withdraw _ _))).claimFails s p
  · exact h.outside ((Outside.refl b).withdraw _ _)

theorem rivalClaim (h : b.Lawful sh) (s : Shop) (i : SlabId) : (b.rivalClaim s i).Lawful sh := by
  unfold Blocks.rivalClaim
  split
  · exact h
  next p hp =>
    split
    next hc => exact h.withdrawClaim hp hc.1 s p
    next => exact h

theorem releaseOutcome (h : b.Lawful sh) (s : Shop) (i : SlabId) (taken : Bool) :
    (b.releaseOutcome s i taken).Lawful sh := by
  unfold Blocks.releaseOutcome
  split
  · exact h
  next p hp =>
    split
    next hc =>
      split
      · refine h.tuned (.onPlan (fun q hq => ⟨rfl, rfl, fun _ => .inr ?_⟩))
        obtain rfl : p = q := Option.some.inj (hp.symm.trans hq)
        exact hc.1
      · exact (h.idle_of_stage hp (.inl hc.1)).planEnds s
    next => exact h

/-- A plan being CONSUMED has the sequencer in FINISHING or IDLE (R124). -/
theorem consuming_state (h : b.Lawful sh) {p : Plan} (hp : b.planner.plan = some p) (hf : p.following = .consuming) :
    b.saw.st = .finishing ∨ b.saw.st = .idle := by
  have hm := h.mirror
  rw [hp] at hm
  have hs := ((mirrors_some_iff p _).mp hm).2
  cases hr : p.releasing with
  | true =>
    rw [hr] at hs
    exact .inr hs
  | false =>
    rw [hr, hf] at hs
    simpa [PlanState.allows] using hs

theorem consumeOutcome (h : b.Lawful sh) (s : Shop) (i : SlabId) (taken : Bool) :
    (b.consumeOutcome s i taken).Lawful sh := by
  unfold Blocks.consumeOutcome
  split
  · exact h
  next p hp =>
    split
    next hc =>
      split
      · refine Idle.planEnds ?_ s
        have k : b.SawAside (((b.onCost (CostUnit.takeSettlement p.settlements)).setPlan none).post
            (.planDone p.slab p.settlements.length p.abandoned)) :=
          (((SawAside.refl b).outside ((Outside.refl b).onCost _)).setPlan none).outside ((Outside.refl _).post _)
        have hsaws := Blocks.saws_of (h.saws_of_plan hp) k.role (by rw [k.mem]; exact id)
        have hgrant := h.grant.trans (effGrant_of_straps k.station k.role sh).symm
        unfold Blocks.sawPlanEnded
        rw [k.saw]
        split
        next hfin =>
          refine Idle.startDrop ⟨rfl, ?_, hsaws, ?_⟩
          · simp only [Blocks.sawIdle, Blocks.onSaw_saw, k.saw]
            exact h.saw.returns (.inr (.inr hfin))
          · simp only [Blocks.sawIdle, Blocks.onSaw_saw, k.saw]
            exact hgrant
        next hfin =>
          exact ⟨by rw [k.saw]; exact (h.consuming_state hp hc.2).resolve_left hfin, by rw [k.saw]; exact h.saw, hsaws,
            by rw [k.saw]; exact hgrant⟩
      · split
        · exact h.tuned (.onPlan (fun _ _ => ⟨rfl, rfl, .inl⟩))
        · exact h.planSlabLost
    next => exact h

theorem reclaimed (h : b.Lawful sh) {p : Plan} (hp : b.planner.plan = some p) (hr : p.state = .reclaiming) (s : Shop) :
    (b.reclaimed s p).Lawful sh := by
  have h1 : (b.onPlan (fun q => { q with state := q.back })).Lawful sh := by
    refine h.tuned (.onPlan (fun q hq => ⟨?_, rfl, .inl⟩))
    obtain rfl : p = q := Option.some.inj (hp.symm.trans hq)
    simp [Plan.following, hr]
  unfold Blocks.reclaimed
  dsimp only
  split
  next hk =>
    have hm := h.mirror
    rw [hp] at hm
    exact ((h.idle_of_stage hp (.inl (((mirrors_some_iff p _).mp hm).1 hk))).aside ((SawAside.refl b).onPlan _)).offerRelease
  · split
    · exact h1.tuned (.offerConsume s _)
    · exact h1.look s

theorem reclaimOutcome (h : b.Lawful sh) (s : Shop) (i : SlabId) (taken : Bool) :
    (b.reclaimOutcome s i taken).Lawful sh := by
  unfold Blocks.reclaimOutcome
  split
  · exact h
  next p hp =>
    split
    next hc =>
      split
      · exact h.reclaimed hp hc.1 s
      · split
        · exact h
        · split
          next hk =>
            have hm := h.mirror
            rw [hp] at hm
            have hidle := h.idle_of_stage hp (.inl (((mirrors_some_iff p _).mp hm).1 hk))
            have hs := SawAside.lostSlab b
            rw [planSlabLost_eq, sawSlabLost_idle (by rw [hs.saw]; exact hidle.state)]
            exact (hidle.aside hs).planEnds s
          next => exact h.planSlabLost
    next => exact h

/-! ## The piece queue, abandoning, leaving and rejoining (R122, R136-R139) -/

theorem jobsLeft (h : b.Lawful sh) (s : Shop) (left : Nat → Bool) : (b.jobsLeft s left).Lawful sh := by
  have k := (Outside.refl (b.onPlanner (fun p => { p with pieces := p.pieces.filter (fun a => !left a.job) }))).postAll
    (cancelNotices (b.planner.pieces.filter (fun p => left p.job)))
  have h1 : ((b.onPlanner (fun p => { p with pieces := p.pieces.filter (fun a => !left a.job) })).postAll
      (cancelNotices (b.planner.pieces.filter (fun p => left p.job)))).Lawful sh := by
    refine Lawful.outside (h.tuned ?_) k
    exact ⟨rfl, fun hn => by simp [hn], id, fun p hp => ⟨p, hp, .refl p⟩, rfl, rfl, rfl⟩
  unfold Blocks.jobsLeft
  dsimp only
  split
  · exact h1
  next p hp =>
    split
    next hc =>
      refine (h1.tuned (.onPlan (f := fun q => { q with piece := none }) (fun _ _ => ⟨rfl, rfl, .inl⟩))).withdrawClaim (q := { p with piece := none }) ?_ hc.1 s p
      rw [Blocks.onPlan_planner, hp]
      rfl
    next => exact h1

end Lawful

/-- The placements leave a plan: the sequencer is not moved, and the plan's stage stands (R136). -/
theorem SawAside.placementsLeave (s : Shop) (leaves : Placement → Bool) (p : Plan) (b : Blocks) :
    b.SawAside (b.placementsLeave s leaves p) := by
  unfold Blocks.placementsLeave Blocks.piecesReturn
  exact (((SawAside.refl b).onPlan _).onPlanner _).outside ((((Outside.refl _).postAll _).onCost _).reportChecks s)

theorem placementsLeave_plan (s : Shop) (leaves : Placement → Bool) (p : Plan) (b : Blocks) :
    (b.placementsLeave s leaves p).planner.plan =
      b.planner.plan.map (fun q => { q with placements := q.placements.filter (fun x => !leaves x) }) := by
  unfold Blocks.placementsLeave Blocks.piecesReturn
  dsimp only
  rw [((((Outside.refl _).postAll _).onCost _).reportChecks s).planner]
  rfl

namespace Lawful

/-- The plan that ABANDON_PLAN withdraws leaves the sequencer IDLE (R162). -/
theorem withdrawn (h : b.Lawful sh) {p : Plan} (hp : b.planner.plan = some p)
    (hst : p.state = .loadWait ∨ p.state = .faulted) (hr : p.releasing = false) : b.sawWithdrawn.Idle sh := by
  refine h.sawWithdrawn (h.saws_of_plan hp) ?_
  have hm := h.mirror
  rw [hp] at hm
  have hf := ((mirrors_some_iff p _).mp hm).2
  rw [hr] at hf
  rcases hst with e | e
  · exact .inl (by simpa [Plan.following, e, PlanState.allows] using hf)
  · exact .inr (by simpa [Plan.following, e, PlanState.allows] using hf)

theorem abandonQueued (h : b.Lawful sh) {p : Plan} (hp : b.planner.plan = some p)
    (hst : p.state = .loadWait ∨ p.state = .faulted) (hr : p.releasing = false) (s : Shop) :
    (b.abandonQueued s p).Lawful sh := by
  have hidle := h.withdrawn hp hst hr
  have hm := h.mirror
  rw [hp] at hm
  have hk := ((mirrors_some_iff p _).mp hm).1
  unfold Blocks.abandonQueued
  dsimp only
  split
  · have h1 := (hidle.aside (.placementsLeave s (fun x => !x.done) p _)).aside ((SawAside.refl _).onPlan
      (fun q => { q with state := .consuming, abandoned := true, fault := none }))
    refine (h1.lawful ?_).tuned (.offerConsume s _)
    rw [Blocks.onPlan_planner, placementsLeave_plan, sawWithdrawn_planner, hp]
    refine (mirrors_some_iff _ _).mpr ⟨hk, ?_⟩
    simp [Plan.following, PlanState.allows]
  · exact (hidle.aside (.placementsLeave s _ p _)).offerRelease

theorem abandonLost (h : b.Lawful sh) {p : Plan} (hp : b.planner.plan = some p)
    (hst : p.state = .loadWait ∨ p.state = .faulted) (hr : p.releasing = false) (s : Shop) :
    (b.abandonLost s p).Lawful sh :=
  (((h.withdrawn hp hst hr).aside (.placementsLeave s _ p _)).aside
    ((SawAside.refl _).outside ((Outside.refl _).onCost _))).planEnds s

theorem plannerLeaves (h : b.Lawful sh) : b.plannerLeaves.Lawful sh := by
  have h1 := h.outside (((Outside.refl b).withdraw .planner isRelease).withdraw .planner isConsume)
  refine Lawful.tuned (h1.tuned (.onPlan (fun p _ => ?_))) (.setSealT _ none)
  refine ⟨rfl, rfl, fun k => ?_⟩
  simp only [Bool.or_eq_true, Bool.and_eq_true] at k
  exact k.imp_right (fun k => k.2)

theorem plannerEnters (h : b.Lawful sh) (s : Shop) : (b.plannerEnters s).Lawful sh := by
  unfold Blocks.plannerEnters Blocks.offerReclaim
  split
  · exact h.search s
  next p hp =>
    have h1 : (b.onPlan (fun q =>
        { q with back := if q.state = .reclaiming then q.back else q.state, state := .reclaiming })).Lawful sh :=
      h.tuned (.onPlan (fun _ _ => ⟨rfl, rfl, .inl⟩))
    repeat' split
    · exact h
    · exact h1
    · exact h1.outside ((Outside.refl _).offer _ _)
    · exact h

theorem plannerDiscarded (h : b.Lawful sh) (s : Shop) (k : Kind) : (b.plannerDiscarded s k).Lawful sh := by
  unfold Blocks.plannerDiscarded
  split
  next p hp =>
    split
    next hc => exact (h.idle_of_stage hp (.inr (.inl (by simp [Plan.following, hc])))).claimFails s p
    next => exact h
  · exact h.tuned (.onPlan (fun _ _ => ⟨rfl, rfl, .inr⟩))
  · exact h.tuned (.onPlan (fun _ _ => ⟨rfl, rfl, .inl⟩))
  · exact h

end Lawful

end Blocks

end Sys2Proof.Machine

/-! The laws of the saw through the presence unit, the table unit and the news of a frame (R12, R22 to R64): one lemma an
operation, each from the laws before it to the laws after it. -/

namespace Sys2Proof.Machine

namespace Blocks.SawStands

variable {a b : Blocks}

theorem outside {c : Blocks} (h : a.SawStands b) (k : b.Outside c) : a.SawStands c := h.trans k.sawStands

/-- A change of the presence unit that leaves the straps and does not make the station INERT. -/
theorem onPres (h : a.SawStands b) {f : Presence → Presence} (h1 : (f b.pres).station = b.pres.station)
    (h2 : (f b.pres).role = b.pres.role) (h3 : (f b.pres).mem = .inert → b.pres.mem = .inert) :
    a.SawStands (b.onPres f) := h.trans ⟨rfl, rfl, h1, h2, h3⟩

theorem setMem (h : a.SawStands b) {m : Membership} (hm : m ≠ .inert) : a.SawStands (b.setMem m) :=
  h.onPres rfl rfl (fun k => absurd k hm)

theorem setAskT (h : a.SawStands b) (t : Option Nat) : a.SawStands (b.setAskT t) := h.trans ⟨rfl, rfl, rfl, rfl, id⟩

theorem restartAskT (h : a.SawStands b) : a.SawStands b.restartAskT := by
  unfold Blocks.restartAskT
  split
  · exact h
  · exact h.setAskT _

theorem setPhase (h : a.SawStands b) (ph : Phase) : a.SawStands (b.setPhase ph) := by
  unfold Blocks.setPhase
  split
  · exact h
  · exact h.setMem (by simp)
  all_goals exact h

theorem offerJoin (h : a.SawStands b) : a.SawStands b.offerJoin := by
  have h1 := h.setMem (m := .joining) (by simp)
  unfold Blocks.offerJoin
  dsimp only
  split
  · exact h1
  · exact h1.outside ((Outside.refl _).offer _ _)

theorem leaveMember (h : a.SawStands b) : a.SawStands b.leaveMember :=
  (h.onPres (f := fun p => { p with mem := .joining, helloT := none }) rfl rfl (by simp)).outside
    ((Outside.refl _).withdraw _ _)

theorem setSerial (h : a.SawStands b) (sh : Shop) : a.SawStands (b.setSerial sh) := h.trans ⟨rfl, rfl, rfl, rfl, id⟩

theorem beginWatch (h : a.SawStands b) (sh : Shop) : a.SawStands (b.beginWatch sh) := h.onPres rfl rfl id

theorem ask (h : a.SawStands b) (sh : Shop) : a.SawStands (b.ask sh) := by
  have h1 := (h.setAskT none).outside ((Outside.refl _).onAsking (fun x => { x with answered := false }))
  unfold Blocks.ask
  split
  · dsimp only
    split
    · exact h1
    · exact h1.outside ((Outside.refl _).offer _ _)
  · exact h

theorem hear (h : a.SawStands b) (s : Nat) : a.SawStands (b.hear s) :=
  (h.onPres (f := fun p => { p with heard := Slots.set s b.now p.heard }) rfl rfl id).outside
    ((Outside.refl _).withdraw _ _)

theorem seenHead (h : a.SawStands b) (sender target : Nat) : a.SawStands (b.seenHead sender target) := by
  unfold Blocks.seenHead
  split
  · exact h.hear sender
  · exact (h.hear sender).outside (((Outside.refl _).onAsking _).rivalSnap sender target)

theorem buildBegun (h : a.SawStands b) : a.SawStands b.buildBegun :=
  (h.restartAskT.outside ((Outside.refl _).withdraw _ _)).setPhase .building

/-- Its own sending completes (R19, R30, R35, R58). -/
theorem completes (h : a.SawStands b) (sh : Shop) : a.SawStands (b.completes sh) := by
  have own : ∀ {c : Blocks}, a.SawStands c → a.SawStands c.ownCompleted := by
    intro c k
    unfold Blocks.ownCompleted
    split
    · exact k.onPres rfl rfl id
    · exact k
  unfold Blocks.completes
  split
  · exact h
  next e _ =>
    have h1 := own (h.outside ((Outside.refl b).onLine (fun l =>
      { l.dropEmitted with
        failures := 0, yielding := true
        txDone := if handedOn b.pres.station e.frame then some e.frame.kind else none })))
    dsimp only
    split
    · unfold Blocks.askSent
      split
      · exact h1
      · exact h1.restartAskT
    · exact h1.outside ((Outside.refl _).snapCompleted sh _)
    all_goals exact h1

theorem unanswered (h : a.SawStands b) (sh : Shop) : a.SawStands (b.unanswered sh) := by
  have h1 := h.outside ((Outside.refl b).onAsking (fun x => { x with count := min 3 (x.count + 1) }))
  unfold Blocks.unanswered
  dsimp only
  split
  · exact h1.ask sh
  · have h2 : a.SawStands
        (if (b.onAsking (fun x => { x with count := min 3 (x.count + 1) })).asking.failed then
          b.onAsking (fun x => { x with count := min 3 (x.count + 1) })
        else ((b.onAsking (fun x => { x with count := min 3 (x.count + 1) })).post (.syncFailed sh.gen sh.state)).onAsking
          (fun x => { x with failed := true })) := by
      split
      · exact h1
      · exact h1.outside (((Outside.refl _).post _).onAsking _)
    repeat' split
    · exact h1
    · exact h1.outside ((Outside.refl _).offer _ _)
    · exact h1.ask sh
    · exact h1.outside (((Outside.refl _).post _).onAsking _)
    · exact h1.outside ((((Outside.refl _).post _).onAsking _).offer _ _)
    · exact (h1.outside (((Outside.refl _).post _).onAsking _)).ask sh

theorem listenEnds (h : a.SawStands b) (sh : Shop) : a.SawStands (b.listenEnds sh) := by
  have h1 := h.onPres (f := fun p => { p with listenT := none }) rfl rfl id
  unfold Blocks.listenEnds
  dsimp only
  repeat' split
  · exact h1.offerJoin
  · exact h1.setMem (by simp)
  · exact (h1.setMem (by simp)).ask sh
  · exact (h1.setMem (by simp)).ask sh
  · exact h1

theorem helloExpires (h : a.SawStands b) (t : Nat) : a.SawStands (b.helloExpires t) := by
  have h1 := h.onPres (f := fun p => { p with helloT := some (t + 1000) }) rfl rfl id
  unfold Blocks.helloExpires
  dsimp only
  split
  · exact h1.outside ((Outside.refl _).offer _ _)
  · exact h1

theorem silent (x : Nat) (sh : Shop) (b : Blocks) : b.SawStands (b.silent x sh) := by
  unfold Blocks.silent
  repeat' split
  · exact refl b
  next t _ _ =>
    exact SawStands.outside (b := b.atDeadline (t + 3000)) ⟨rfl, rfl, rfl, rfl, id⟩ ((Outside.refl _).offer _ _)
  · exact refl b

end Blocks.SawStands

namespace Blocks.Lawful

variable {sh : Shop} {b : Blocks}

/-! ## The membership (R53 to R62) -/

theorem rejoinShop (h : b.Lawful sh) (gen : Word16) : (b.rejoinShop gen).Lawful sh := by
  have h1 := h.stands (((SawStands.refl b).leaveMember.outside ((Outside.refl _).post (.goneSelf gen))).offerJoin)
  exact h1.plannerLeaves.outside ((Outside.refl _).withdraw _ _)

theorem enterMember (h : b.Lawful sh) (s : Shop) : (b.enterMember s).Lawful sh := by
  have k := (((((SawStands.refl b).onPres (f := fun p => { p with mem := .member, helloT := b.after 1000 }) rfl rfl
    (by simp)).setSerial s).beginWatch s).outside ((Outside.refl _).post (.joined b.pres.station b.pres.role)))
  exact (((h.stands k).outside ((Outside.refl _).plantLive s)).plannerEnters s).outside ((Outside.refl _).askCheck s)

theorem presenceCurrent (h : b.Lawful sh) (s : Shop) : (b.presenceCurrent s).Lawful sh := by
  unfold Blocks.presenceCurrent
  repeat' split
  · exact h.stands (SawStands.refl b).offerJoin
  · exact h.stands (SawStands.refl b).offerJoin
  · exact h.stands ((SawStands.refl b).beginWatch s)
  · exact h.rejoinShop s.gen
  all_goals exact h

/-! ## The replica enters and leaves CURRENT (R27, R44, R47) -/

theorem plannerCurrent (h : b.Lawful sh) (s : Shop) : (b.plannerCurrent s).Lawful sh := by
  have h1 := h.jobsLeft s (jobClosedIn s.rep)
  unfold Blocks.plannerCurrent Blocks.rereadJobs
  dsimp only
  split
  · exact h1.searchOrLook s
  · exact h1

/-- The replica becomes CURRENT: the grant that it gives moves the sequencer (R100). -/
theorem becomeCurrent {sh0 : Shop} (h : b.Lawful sh0) : (b.becomeCurrent (effGrant sh0 b) sh).Lawful sh := by
  have k := (((((SawStands.refl b).outside ((Outside.refl b).onAsking (fun x => { x with count := 0, failed := false }))).setAskT
    none).outside ((Outside.refl _).withdraw .table isSyncAsk)).outside ((Outside.refl _).withdraw .table isRebase)).outside
      ((Outside.refl _).post (.synced sh.gen))
  have h1 := (h.stands k).grantReport (sh := sh) ((congrArg Saw.grant k.saw).trans h.grant) sh rfl
  exact ((((h1.presenceCurrent sh).outside ((Outside.refl _).plantCurrent sh)).plannerCurrent sh).outside
    ((Outside.refl _).askCheck sh)).outside ((Outside.refl _).costCurrent sh)

theorem becomeStale {sh0 : Shop} (h : b.Lawful sh0) (frame : Word16) :
    (b.becomeStale (effGrant sh0 b) frame sh).Lawful sh := by
  have k := ((Outside.refl b).post (.stale sh.gen frame)).dropStream
  have h1 := (h.outside k).grantReport (sh := sh) ((congrArg Saw.grant k.saw).trans h.grant) sh rfl
  exact (h1.tuned (.setSealT _ none)).stands ((SawStands.refl _).ask sh)

/-! ## What MUTE and REJOIN discard (R14, R22, R63) -/

theorem discarded (h : b.Lawful sh) (s : Shop) (w : Waiter) : (b.discarded s w).Lawful sh := by
  unfold Blocks.discarded
  split
  · exact h.outside ((Outside.refl b).post _)
  · exact h.outside ((Outside.refl b).post _)
  · exact h.outside ((Outside.refl b).post _)
  · exact h.plannerDiscarded s _
  · exact h.outside ((Outside.refl b).onCost _)
  · exact h

theorem discardAll (h : b.Lawful sh) (s : Shop) : (b.discardAll s).Lawful sh := by
  have fold : ∀ (l : List Waiter) (c : Blocks), c.Lawful sh → (l.foldl (fun x w => x.discarded s w) c).Lawful sh := by
    intro l
    induction l with
    | nil => exact fun _ k => k
    | cons w rest ih => exact fun c k => ih _ (k.discarded s w)
  exact fold _ _ (h.outside ⟨rfl⟩)

theorem enterMute (h : b.Lawful sh) (s : Shop) : (b.enterMute s).Lawful sh := by
  have h1 := (h.stands ((SawStands.refl b).onPres
    (f := fun p => { p with mem := .mute, listenT := none, askT := none, helloT := none }) rfl rfl (by simp))).discardAll s
  exact h1.outside ⟨rfl⟩

theorem duplicate (h : b.Lawful sh) (s : Shop) : (b.duplicate s).Lawful sh := by
  unfold Blocks.duplicate
  split
  · exact h.enterMute s
  · exact h.enterMute s
  all_goals exact h

theorem peerHead (h : b.Lawful sh) (f : Taken) (s : Shop) : (b.peerHead f s).Lawful sh := by
  have h1 : Lawful sh (if b.line.emitting.isNone then b.onLine (fun l => { l with yielding := false }) else b) := by
    split
    · exact h.outside ((Outside.refl b).onLine _)
    · exact h
  have h2 := h1.stands ((SawStands.refl _).hear f.sender)
  unfold Blocks.peerHead
  dsimp only
  split
  · exact h2.duplicate s
  · exact h2

/-! ## The news of a change frame (R28) -/

theorem presenceNews (h : b.Lawful sh) (a : Applied) (s : Shop) : (b.presenceNews a s).Lawful sh := by
  unfold Blocks.presenceNews
  split
  · split
    · exact h.enterMember s
    · exact h
  next n _ =>
    have h1 : Lawful sh (if a.own then b else b.withdraw .presence (isGoneOf n)) := by
      split
      · exact h
      · exact h.outside ((Outside.refl b).withdraw _ _)
    split
    · dsimp only
      split
      · exact h1.rejoinShop s.gen
      · exact h1
    · exact h
  · exact h

/-- The planner's own news, by the change that the frame carries (R28, R122). -/
theorem plannerNews (h : b.Lawful sh) (a : Applied) (s : Shop) : (b.plannerNews a s).Lawful sh := by
  have searches : ∀ {c : Blocks}, c.Lawful sh → Lawful sh (if a.out.news.isEmpty then c else c.search s) := by
    intro c hc
    split
    · exact hc
    · exact hc.search s
  unfold Blocks.plannerNews
  split
  · refine searches ?_
    split
    · split
      · exact h.claimOutcome s _ _
      · split
        · exact h.rivalClaim s _
        · exact h
    · split
      · exact h.releaseOutcome s _ _
      · exact h
    · split
      · exact h.reclaimOutcome s _ _
      · exact h
    · split
      · exact h.consumeOutcome s _ _
      · exact h
    · split
      · exact h.searchOrLook s
      · exact h
    · split
      · exact h.jobsLeft s _
      · exact h
    · exact h
  · exact h

theorem costNews (h : b.Lawful sh) (a : Applied) (s : Shop) : (b.costNews a s).Lawful sh := by
  unfold Blocks.costNews
  extract_lets b1 b2
  have h1 : b1.Lawful sh := by
    dsimp only [b1]
    split
    next n _ _ =>
      split
      · have h0 := h.outside ((Outside.refl b).reportOutcome n a.taken s.gen)
        split
        · exact h0.search s
        · exact h0
      · exact h
    · exact h
  have h2 : b2.Lawful sh := by
    dsimp only [b2]
    split
    · exact h1
    · exact h1.outside ((Outside.refl b1).costAfter _ s)
  split
  · split
    · exact h2.outside ((Outside.refl b2).zeroCheck s _)
    · exact h2
  · exact h2

/-- A change frame is told to every block, and the grant that it gives is told to the sequencer (R28, R100). -/
theorem tellAll {sh0 : Shop} (h : b.Lawful sh0) (a : Applied) : (b.tellAll a (effGrant sh0 b) sh).Lawful sh := by
  have k := (Outside.refl b).streamNews a sh
  have h1 := (h.outside k).grantReport (sh := sh) ((congrArg Saw.grant k.saw).trans h.grant) sh rfl
  have h2 := h1.outside (((Outside.refl _).sawNews a sh).leaveNews a sh)
  have h3 := ((h2.presenceNews a sh).outside ((Outside.refl _).plantNews a sh)).outside ((Outside.refl _).figuresNews a)
  exact ((h3.plannerNews a sh).costNews a sh).outside ((Outside.refl _).hostNews a)

end Blocks.Lawful

end Sys2Proof.Machine

/-! O8: every command, and the clock's tick, keeps the laws of the saw. -/

namespace Sys2Proof.Machine

/-- The laws of the saw hold at a part. -/
def Station.SawLawful (d : Station) : Prop := d.blk.Lawful d.shop

theorem Station.sawLawful_iff (d : Station) : sawSound d.shop d.blk = true ↔ d.SawLawful := sawSound_iff d.shop d.blk

/-! ## A build ends or is abandoned in a replica that is not CURRENT (R39, R45) -/

theorem Shop.not_current_iff (sh : Shop) : sh.current = false ↔ sh.state ≠ .current := by simp [Shop.current]

/-- What a sound shop state sets aside grants nothing (R39). -/
theorem Shop.abandoned_not_current {sh : Shop} (hs : sh.sound = true) (hc : sh.current = false) :
    sh.abandoned.current = false := by
  cases hb : sh.build with
  | none =>
    unfold Shop.abandoned
    rw [hb]
    exact hc
  | some x =>
    rw [Shop.abandoned_of hb, Shop.not_current_iff]
    exact Shop.aside_not_current hs hb

/-- A sound shop state that is BUILDING something is not CURRENT. -/
theorem Shop.building_not_current {sh : Shop} (hs : sh.sound = true) {x : Build} (hb : sh.build = some x) :
    sh.current = false := by
  unfold Shop.sound at hs
  rw [hb] at hs
  simp only [Bool.and_eq_true, beq_iff_eq] at hs
  obtain ⟨_, ⟨⟨⟨hst, _⟩, _⟩, _⟩, _⟩ := hs
  simp [Shop.current, hst]

/-- A SNAP's result that leaves the replica waiting grants nothing. -/
def SnapResult.Waits : SnapResult → Prop
  | .begun x | .fed x | .abandoned x | .rebuilt x => x.current = false
  | .ignored | .restartAsk | .completed _ => True

theorem Shop.feed_waits {sh : Shop} (hc : sh.current = false) (ha : sh.abandoned.current = false) (rec : Record)
    (x : Build) : (sh.feed rec x).Waits := by
  cases rec with
  | fin a b c d =>
    show (sh.finish a b c d x).Waits
    unfold Shop.finish
    dsimp only
    split
    · trivial
    · exact ha
  | member | head | entry | slab | job => exact hc

theorem Shop.begin_waits {sh : Shop} (hc : sh.current = false) (sender : Nat) (gen : Word16) (rec : Record) :
    (sh.begin_ sender gen rec).Waits := by
  by_cases h : rec.IsEnd
  · obtain ⟨a, b, c, d, rfl⟩ := h
    rw [Shop.begin_of_end]
    split
    · trivial
    · exact hc
  · rw [Shop.begin_of_not_end h]
    rfl

theorem Shop.onSnap_waits {sh : Shop} (hc : sh.current = false) (ha : sh.abandoned.current = false) (sender : Nat)
    (gen : Word16) (p : List Byte) : (sh.onSnap sender gen p).Waits := by
  have abandons : (SnapResult.abandoned sh.abandoned).Waits := ha
  have begins := Shop.begin_waits hc sender gen
  unfold Shop.onSnap
  split
  · trivial
  · split
    · exact begins _
    · trivial
  · split
    · exact begins _
    · trivial
  · split
    · trivial
    · split
      · split
        · split
          · exact Shop.feed_waits hc ha _ _
          · exact abandons
        · exact abandons
      · split
        · split
          next rec _ =>
            have again := Shop.begin_waits ha sender gen rec
            split
            next h =>
              rw [h] at again
              exact again
            next => exact again
          next => exact abandons
        · trivial

theorem Shop.buildChange_state {s : Nat} {k : Kind} {gen : Word16} {p : List Byte} {x : Build} {sh sh' : Shop}
    (h : sh.buildChange s k gen p x = some sh') : sh'.state = sh.state := by
  unfold Shop.buildChange at h
  dsimp only at h
  repeat' split at h
  all_goals
    cases h
    try rfl

/-! ## Stations -/

namespace Station.SawLawful

variable {d : Station}

/-- A move of the blocks that the laws do not see. -/
theorem stands (h : d.SawLawful) {b : Blocks} (k : d.blk.SawStands b) : Station.SawLawful { d with blk := b } :=
  Blocks.Lawful.stands h k

theorem gap (h : d.SawLawful) (frame : Word16) : (d.gap frame).SawLawful := Blocks.Lawful.becomeStale h frame

theorem abandonBuild (h : d.SawLawful) (hc : d.shop.current = false) (ha : d.shop.abandoned.current = false) :
    d.abandonBuild.SawLawful :=
  Blocks.Lawful.notCurrent
    (Blocks.Lawful.stands h ((((Blocks.SawStands.refl d.blk).setPhase .asking).setAskT none).ask d.shop.abandoned)) hc ha

theorem apply (h : d.SawLawful) (own : Bool) (f : Taken) : (d.apply own f).SawLawful := Blocks.Lawful.tellAll h _

theorem takeChange (h : d.SawLawful) (hs : d.shop.sound = true) (own : Bool) (f : Taken) :
    (d.takeChange own f).SawLawful := by
  unfold Station.takeChange
  split
  · split
    · exact h.apply own f
    · exact h.gap f.gen
  next hst =>
    have hc : d.shop.current = false := by simp [Shop.current, hst]
    split
    · exact h
    · split
      next sh hsh =>
        refine Blocks.Lawful.notCurrent h hc ?_
        rw [Shop.not_current_iff, Shop.buildChange_state hsh, hst]
        decide
      next => exact h.abandonBuild hc (Shop.abandoned_not_current hs hc)
  all_goals exact h

theorem takeSnapHere (h : d.SawLawful) (hs : d.shop.sound = true) (hc : d.shop.current = false) (f : Taken) :
    (d.takeSnapHere f).SawLawful := by
  have k := (((Blocks.Outside.refl d.blk).onAsking (fun a => { a with count := 0, failed := false })).onAsking
    (fun a => { a with answered := true })).withdrawRebase
  have h1 : Blocks.Lawful d.shop _ := Blocks.Lawful.outside h k
  have waits := Shop.onSnap_waits hc (Shop.abandoned_not_current hs hc) f.sender f.gen f.payload
  have hgrant := effGrant_of_straps (b := d.blk) (by rw [k.pres]) (by rw [k.pres]) d.shop
  unfold Station.takeSnapHere
  dsimp only
  split
  next => exact h1
  next => exact h1.stands (Blocks.SawStands.refl _).restartAskT
  next hr => exact (h1.stands (Blocks.SawStands.refl _).buildBegun).notCurrent hc (hr ▸ waits :)
  next hr => exact (h1.stands (Blocks.SawStands.refl _).buildBegun).notCurrent hc (hr ▸ waits :)
  next hr => exact (h1.stands (Blocks.SawStands.refl _).restartAskT).notCurrent hc (hr ▸ waits :)
  next sh hr =>
    exact (h1.stands ((((Blocks.SawStands.refl _).setPhase .asking).setAskT none).ask sh)).notCurrent hc (hr ▸ waits :)
  next =>
    rw [← hgrant]
    exact h1.becomeCurrent

theorem takeSnap (h : d.SawLawful) (hs : d.shop.sound = true) (f : Taken) : (d.takeSnap f).SawLawful := by
  have h1 : Station.SawLawful { d with blk := (d.blk.snapHeardNow).rivalSnap f.sender f.target } :=
    Blocks.Lawful.outside h (((Blocks.Outside.refl d.blk).onAsking _).rivalSnap _ _)
  unfold Station.takeSnap
  dsimp only
  split
  next => exact h1
  next hc => exact h1.takeSnapHere hs (by simpa using hc) f

theorem rebaseOwn (h : d.SawLawful) : d.rebaseOwn.SawLawful := by
  unfold Station.rebaseOwn
  split
  · exact h
  · exact Blocks.Lawful.becomeCurrent h

theorem rebaseOther (h : d.SawLawful) (hs : d.shop.sound = true) (gen : Word16) : (d.rebaseOther gen).SawLawful := by
  unfold Station.rebaseOther
  split
  · exact gap (d := { d with blk := d.blk.clearAsks }) (Blocks.Lawful.outside h
      ((Blocks.Outside.refl d.blk).onAsking (fun a => { a with count := 0, failed := false }))) gen
  next hcur =>
    have hc : d.shop.current = false := by simpa using hcur
    have h1 : Blocks.Lawful d.shop (if d.shop.build.isSome then d.blk.setPhase .asking else d.blk) := by
      split
      · exact Blocks.Lawful.stands h ((Blocks.SawStands.refl d.blk).setPhase .asking)
      · exact h
    have h2 := h1.outside (((Blocks.Outside.refl _).onAsking (fun a => { a with count := 0, failed := false })).withdrawRebase)
    exact (h2.stands (((Blocks.SawStands.refl _).setAskT none).ask d.shop.abandoned)).notCurrent hc
      (Shop.abandoned_not_current hs hc)

theorem takeKind (h : d.SawLawful) (hs : d.shop.sound = true) (own : Bool) (f : Taken) :
    (d.takeKind own f).SawLawful := by
  unfold Station.takeKind
  split
  · exact h
  · split
    · exact h
    · exact Blocks.Lawful.outside h ((Blocks.Outside.refl d.blk).takeSyncAsk f.sender d.shop)
  · split
    · exact h
    · exact h.takeSnap hs f
  · split
    · exact h.rebaseOwn
    · exact h.rebaseOther hs f.gen
  all_goals exact h.takeChange hs own f

/-- REJOIN empties the replica, and the grant of 0 moves the sequencer (R64). -/
theorem rejoinNow (h : d.SawLawful) : d.rejoinNow.SawLawful := by
  have k1 := (Blocks.SawStands.refl d.blk).onPres
    (f := fun p => { p with mem := .outside .listen, listenT := some (d.blk.now + 1500), askT := none, helloT := none })
    rfl rfl (by simp)
  have h1 := Blocks.Lawful.discardAll (Blocks.Lawful.stands h k1) Shop.emptied
  have h2 := ((h1.outside (((Blocks.Outside.refl _).onAsking (fun a => { a with stream := none })).onAsking
    (fun a => { a with count := 0, failed := false }))).outside ((Blocks.Outside.refl _).onAsking
      (fun a => { a with answered := false }))).tuned (.setSealT _ none)
  have t := (Tells.refl (d.blk.onPres (fun p =>
    { p with mem := .outside .listen, listenT := some (d.blk.now + 1500), askT := none, helloT := none }))).discardAll Shop.emptied
  refine (h2.outside ⟨rfl⟩).grantReport ?_ Shop.emptied rfl
  exact h2.grant.trans (effGrant_of_straps t.station t.role d.shop)

theorem settleRejoin (h : d.SawLawful) : d.settleRejoin.SawLawful := by
  unfold Station.settleRejoin
  split
  · exact h.rejoinNow
  · exact h

theorem completeFor (h : d.SawLawful) (f : Taken) : (d.completeFor f).SawLawful := by
  unfold Station.completeFor
  repeat' split
  · exact h.stands ((Blocks.SawStands.refl d.blk).completes d.shop)
  · exact h
  · exact h

theorem headTaken (h : d.SawLawful) (f : Taken) : (d.headTaken f).SawLawful := by
  have h1 : Blocks.Lawful (d.completeFor f).shop _ :=
    Blocks.Lawful.outside (h.completeFor f) ((Blocks.Outside.refl (d.completeFor f).blk).onLine Line.frameTaken)
  unfold Station.headTaken
  dsimp only
  split
  · exact h1
  · exact h1.peerHead f _

theorem takeFrame (h : d.SawLawful) (hs : d.shop.sound = true) (f : Taken) : (d.takeFrame f).SawLawful := by
  rw [Station.takeFrame_eq]
  refine settleRejoin ?_
  have hshop : (d.headTaken f).shop.sound = true := (congrArg Shop.sound (d.completeFor_shop f)).trans hs
  exact Blocks.Lawful.outside ((h.headTaken f).takeKind hshop _ f) ((Blocks.Outside.refl _).tellDuplicate _ f _)

theorem frameArrives (h : d.SawLawful) (hs : d.shop.sound = true) (f : Taken) : (d.frameArrives f).SawLawful := by
  unfold Station.frameArrives
  repeat' split
  · exact h.stands (((Blocks.SawStands.refl d.blk).outside (((Blocks.Outside.refl d.blk).onLine _).onLine _)).seenHead _ _)
  · exact h.takeFrame hs f
  · exact Blocks.Lawful.outside h (((Blocks.Outside.refl d.blk).onLine _).onLine _)
  · exact h

end Station.SawLawful

/-- A character moves the line and hears a station (R7, R8, R10, R11). -/
theorem Blocks.SawStands.character (data : Byte) (mark stop : Bool) (b : Blocks) :
    b.SawStands (b.character data mark stop).1 := by
  have l : ∀ f : Line → Line, b.SawStands (b.onLine f) := fun f => ((Blocks.Outside.refl b).onLine f).sawStands
  have hd : ∀ r, b.SawStands (b.onLine (Line.discard r)) := fun r => l _
  have hr : ∀ rx, b.SawStands (b.onLine (fun x => { x with rx := rx })) := fun rx => l _
  unfold Blocks.character
  split
  · exact .refl b
  · exact .refl b
  · split
    · split
      · exact hr _
      all_goals exact hd _
    · exact hr _
  · split
    · exact l (fun x => { x.discard .framing with badStop := true })
    · split
      · exact hd _
      · dsimp only
        split
        · exact hr _
        · exact hd _
        · exact hd _
        · exact (hr _).seenHead _ _
        · exact hr _

namespace Station.SawLawful

variable {d : Station}

theorem receive (h : d.SawLawful) (hs : d.shop.sound = true) (data : Byte) (mark stop : Bool) :
    (d.receive data mark stop).SawLawful := by
  have k := ((Blocks.Outside.refl d.blk).onLine (fun l =>
    { l with idle := false, badStop := false, yielding := l.yielding && l.readsOwn })).sawStands
  unfold Station.receive
  split
  · have h1 := h.stands (k.trans (.character data mark stop _))
    dsimp only
    split
    next b1 he =>
      rw [he] at h1
      exact h1
    next b1 f he =>
      rw [he] at h1
      exact takeFrame (d := { d with blk := b1 }) h1 hs f
  · exact h

/-! ## Breaks (R3, R94) -/

/-- A break's grant of 0 is the effective one: a ledger is drained, or the replica is BUILDING (R94). -/
theorem broken {sh : Shop} (h : d.SawLawful) (hzero : ∀ c, effGrant sh c = 0) :
    ((d.blk.breakEnds sh).setGrant sh 0).Lawful sh := by
  have k : d.blk.Outside (d.blk.breakEnds sh) := ((Blocks.Outside.refl d.blk).onLine Line.broken).attemptEnds .broke sh
  have h1 := Blocks.Lawful.setGrant (sh := sh) (Blocks.Lawful.outside h k) sh
  rwa [hzero] at h1

theorem breakEvent (h : d.SawLawful) (hs : d.shop.sound = true) : d.breakEvent.SawLawful := by
  have dry : ∀ {sh : Shop}, sh.current = false → ∀ c, effGrant sh c = 0 := fun hc c => effGrant_of_not_current hc c
  have kept : ∀ {sh : Shop}, d.shop.onBreak = some sh → (∀ c, effGrant sh c = 0) → d.breakEvent.SawLawful := by
    intro sh hsh hzero
    have h1 := h.broken hzero
    rw [Station.breakEvent_some hsh]
    have h3 : (((d.blk.breakEnds sh).setGrant sh 0).grantReport (effGrant d.shop d.blk) sh).Lawful sh := by
      unfold Blocks.grantReport
      split
      · exact h1
      · exact (h1.setGrant sh).outside ((Blocks.Outside.refl _).post _)
    exact Blocks.Lawful.outside h3 (((Blocks.Outside.refl _).streamAfter false true sh).breakReport _ sh)
  cases hb : d.shop.build with
  | none => exact kept (Shop.onBreak_of_no_build hb) (effGrant_drained rfl)
  | some x =>
    have hc := Shop.building_not_current hs hb
    rcases Nat.lt_trichotomy x.reached 2 with hr | hr | hr
    · exact kept (Shop.onBreak_early hb hr) (dry hc)
    · have hzero : ∀ c, effGrant d.shop.brokenAside c = 0 := effGrant_drained rfl
      rw [Station.breakEvent_none (Shop.onBreak_in_ledger hb hr)]
      exact Blocks.Lawful.stands ((h.broken hzero).outside ((Blocks.Outside.refl _).breakReport _ _))
        ((((Blocks.SawStands.refl _).setPhase .asking).setAskT none).ask _)
    · exact kept (Shop.onBreak_late hb hr) (dry hc)

/-! ## Timers (R30, R45) -/

theorem askExpires (h : d.SawLawful) (hs : d.shop.sound = true) : d.askExpires.SawLawful := by
  unfold Station.askExpires
  split
  · exact h
  next t _ =>
    have k : d.blk.SawStands ((d.blk.atDeadline t).setAskT none) :=
      Blocks.SawStands.setAskT (a := d.blk) (b := d.blk.atDeadline t) ⟨rfl, rfl, rfl, rfl, id⟩ none
    have h1 := h.stands k
    dsimp only
    split
    · exact h1
    next hst =>
      have hc : d.shop.current = false := by simp [Shop.current, hst]
      exact h1.abandonBuild hc (Shop.abandoned_not_current hs hc)
    all_goals
      split
      · exact h.stands (k.ask d.shop)
      · exact h.stands (k.unanswered d.shop)

end Station.SawLawful

end Sys2Proof.Machine

/-! O8: the commands. Each one is a move of the line, a frame, a request or a timer whose part was proved above. -/

namespace Sys2Proof.Machine

/-! ## The machine inputs and timers (06 to 09) -/

namespace Blocks.Lawful

variable {sh : Shop} {b : Blocks}

/-- The saw's laws at a part whose clock, pins and measurements alone have moved. -/
theorem elsewhere (h : b.Lawful sh) {c : Blocks} (h1 : c.saw = b.saw) (h2 : c.planner = b.planner) (h3 : c.pres = b.pres) :
    c.Lawful sh := h.stands ⟨h1, h2, by rw [h3], by rw [h3], by rw [h3]; exact id⟩

theorem atDeadline (h : b.Lawful sh) (t : Nat) : (b.atDeadline t).Lawful sh := h.elsewhere rfl rfl rfl

theorem onMeas (h : b.Lawful sh) (f : Meas → Meas) : (b.onMeas f).Lawful sh := h.elsewhere rfl rfl rfl

/-- An expiry does what the timer's act does, the clock at its deadline (log 4). -/
theorem onExpiry (h : b.Lawful sh) {timer : Blocks → Option Nat} {act : Nat → Blocks → Blocks}
    (hact : ∀ t x, timer x = some t → x.Lawful sh → (act t x).Lawful sh) (hnow : ∀ t, timer (b.atDeadline t) = timer b) :
    (b.onExpiry timer act).Lawful sh := by
  unfold Blocks.onExpiry
  split
  · exact h
  next t ht => exact hact t _ ((hnow t).trans ht) (h.atDeadline t)

theorem cutterScan (h : b.Lawful sh) (ma mb : Nat) : (b.cutterScan ma mb).Lawful sh := by
  have load : (b.testLoad ma).Lawful sh := by
    unfold Blocks.testLoad
    dsimp only
    split
    · exact h
    · exact (h.onMeas _).tellDerate
  have jam : ((b.testLoad ma).testJam ma).Lawful sh := by
    unfold Blocks.testJam
    repeat' split
    · exact load.onMeas _
    · exact load
    · exact load.onMeas _
  unfold Blocks.cutterScan Blocks.testDry
  repeat' split
  · exact jam.onMeas _
  · exact jam.onMeas _
  · exact jam

theorem plantScan (h : b.Lawful sh) (ma mb : Nat) (s : Shop) : (b.plantScan ma mb s).Lawful sh := by
  unfold Blocks.plantScan
  dsimp only
  split
  · have k := (((Outside.refl b).onPlant (fun p =>
      { p with band := some (bandAfter b.plant.band (levelOf ma)), turbid := decide (600 < mb) })).onPlant
        (fun p => { p with lastSent := 0 })).haltBreak s
    exact h.outside ((k.trans (c := Blocks.withdrawBudget _) ⟨rfl⟩).republish s)
  · exact h.outside (((Outside.refl b).onPlant _).republish s)

theorem analog (h : b.Lawful sh) (v : Nat) (s : Shop) : (b.analog v s).Lawful sh := by
  have h1 : Lawful sh { b with meas := (b.meas.reading v).1 } := h.elsewhere rfl rfl rfl
  unfold Blocks.analog
  dsimp only
  split
  · split
    · exact h1
    · split
      · exact h1.cutterScan _ _
      · split
        · exact h1.plantScan _ _ s
        · exact h1
  · exact h1

theorem plantWindow (h : b.Lawful sh) (flow : Nat) (s : Shop) : (b.plantWindow flow s).Lawful sh :=
  h.outside (((Outside.refl b).onPlant _).republish s)

/-- A move of the sequencer's timers and counts that leaves its outputs. -/
theorem counts (h : b.Lawful sh) {f : Saw → Saw} (hf : b.saw.Lawful → (f b.saw).Lawful) (hst : (f b.saw).st = b.saw.st)
    (hg : (f b.saw).grant = b.saw.grant) : (b.onSaw f).Lawful sh :=
  ⟨hf h.saw, by rw [Blocks.onSaw_saw, hst]; exact h.mirror, h.rest, hg.trans h.grant⟩

/-- The idle-spin timer's expiry stops the blade of INDEX_WAIT (R156). -/
theorem idleSpinExpires (h : b.Lawful sh) (hs : b.saw.idleSpinT.isSome = true) :
    (b.onSaw (fun w => { w with idleSpinT := none })).bladeOff.Lawful sh := by
  have h1 := (h.at_ (h.saw.idleSpin hs) (by decide)).onSaw (f := fun w => { w with idleSpinT := none }) rfl rfl rfl
  exact h1.off (by decide) (h.saw.feedOn_of_not_cutting (by simp [h.saw.idleSpin hs])) (.inl rfl)

/-- The blade comes up to speed (R142, R151). -/
theorem spinExpires (h : b.Lawful sh) (s : Shop) :
    (let x1 := b.onSaw (fun w => { w with spinT := none, atSpeed := w.blade })
     if x1.saw.blade && x1.saw.st == .spinup then x1.enterCutting s else x1).Lawful sh := by
  dsimp only
  split
  next hc =>
    simp only [Blocks.onSaw_saw, Bool.and_eq_true, beq_iff_eq] at hc
    obtain ⟨hblade, hst⟩ := hc
    have h1 := (h.at_ hst (by decide)).onSaw (f := fun w => { w with spinT := none, atSpeed := w.blade }) rfl rfl rfl
    exact h1.enterCutting hblade (h.saw.water (.inr hst)).2 s
  next => exact h.counts (fun hw => { hw with speed := id }) rfl rfl

theorem holdExpires (h : b.Lawful sh) :
    (let x1 := b.onSaw (fun w => { w with holdT := none })
     if x1.saw.st = .held ∨ x1.saw.st = .waterWait then x1.sawFault .water else x1).Lawful sh := by
  have h1 : (b.onSaw (fun w => { w with holdT := none })).Lawful sh := h.counts (fun hw => { hw with }) rfl rfl
  dsimp only
  split
  next hc => exact (h1.atWork (by rcases hc with e | e <;> rw [e] <;> decide)).fault .water
  next => exact h1

theorem stopInput (h : b.Lawful sh) (asserted : Bool) :
    (let b1 := { b with stop := asserted }
     if asserted && (b1.saw.blade || b1.saw.feedOn) then b1.sawFault .stop else b1).Lawful sh := by
  have h1 : Lawful sh { b with stop := asserted } := h.elsewhere rfl rfl rfl
  dsimp only
  split
  next hc =>
    refine (h1.atWork (fun k => ?_)).fault .stop
    simp only [Bool.and_eq_true, Bool.or_eq_true] at hc
    rcases hc.2 with e | e
    · have := h.saw.driven e
      simp_all
    · have := h.saw.feed e
      simp_all
  next => exact h1

theorem encCount (h : b.Lawful sh) (s : Shop) :
    (if b.saws then
      let b1 := b.onSaw (fun w => { w with enc := min 65535 (w.enc + 1) })
      if b1.saw.st = .cutting ∧ b1.saw.atTarget then b1.completeCut s else b1
    else b).Lawful sh := by
  have h1 : (b.onSaw (fun w => { w with enc := min 65535 (w.enc + 1) })).Lawful sh :=
    h.counts (fun hw => { hw with }) rfl rfl
  dsimp only
  repeat' split
  next hc => exact (h1.at_ hc.1 (by decide)).completeCut h1.saw s
  next => exact h1
  next => exact h

theorem dropExpires (h : b.Lawful sh) (s : Shop) : (b.dropExpires s).Lawful sh := by
  have h1 : (b.onSaw (fun w => { w with dropT := none, waterWanted := false })).Lawful sh :=
    h.counts (fun hw => { hw with }) rfl rfl
  unfold Blocks.dropExpires
  dsimp only
  split
  · exact h1.outside (((Outside.refl _).withdraw _ _).offer _ _)
  · exact h1.outside ((Outside.refl _).withdraw _ _)

theorem chargeNow (h : b.Lawful sh) : b.chargeNow.Lawful sh := by
  unfold Blocks.chargeNow
  repeat' split
  · exact h.outside ((Outside.refl b).onCost _)
  all_goals exact h

end Blocks.Lawful

/-! ## Requests (10) -/

namespace Station.SawLawful

variable {d : Station}

theorem same (h : d.SawLawful) {b : Blocks} (h1 : b.saw = d.blk.saw) (h2 : b.planner = d.blk.planner)
    (h3 : b.pres = d.blk.pres) : Station.SawLawful { d with blk := b } := Blocks.Lawful.elsewhere h h1 h2 h3

theorem sent {x : Answer} (h : x.dev.SawLawful) : x.sent.SawLawful := Blocks.Lawful.elsewhere h rfl rfl rfl

theorem request {act : Station → Answer} (h : d.SawLawful) (hact : d.SawLawful → (act d).dev.SawLawful) :
    (d.request act).SawLawful := by
  rcases Station.request_cases act d with e | e | e <;> rw [e]
  · exact h
  · exact sent (x := d.refuses .inert) h
  · exact (hact h).sent

theorem cutterOnly {act : Station → Answer} (h : d.SawLawful) (hact : d.SawLawful → (act d).dev.SawLawful) :
    (d.cutterOnly act).dev.SawLawful := by
  unfold Station.cutterOnly
  split
  · exact h
  · exact hact h

theorem queues (h : d.SawLawful) (f : Frame) (p : List Byte) : (d.queues f p).dev.SawLawful :=
  Blocks.Lawful.outside h ((Blocks.Outside.refl d.blk).offer .host f)

theorem registerSlab (h : d.SawLawful) (m t l w rack rate : Nat) : (d.registerSlab m t l w rack rate).dev.SawLawful := by
  have h1 : (d.onBlk (fun sh b => b.serialTaken sh)).SawLawful :=
    h.stands (b := d.blk.serialTaken d.shop) ⟨rfl, rfl, rfl, rfl, id⟩
  unfold Station.registerSlab
  dsimp only
  repeat' split
  · exact h
  · exact h
  · exact h
  · exact h1.queues _ _

theorem onRecord (h : d.SawLawful) (code : Nat) (needs : SlabState) (k : Kind) : (d.onRecord code needs k).dev.SawLawful := by
  unfold Station.onRecord
  repeat' split
  all_goals first
    | exact h
    | exact h.queues _ _

theorem openJob (h : d.SawLawful) (n : Nat) : (d.openJob n).dev.SawLawful := by
  unfold Station.openJob
  repeat' split
  all_goals first
    | exact h
    | exact h.queues _ _

theorem closeJob (h : d.SawLawful) (n : Nat) : (d.closeJob n).dev.SawLawful := by
  unfold Station.closeJob
  repeat' split
  all_goals first
    | exact h
    | exact h.queues _ _

theorem fetchNotice (h : d.SawLawful) : d.fetchNotice.dev.SawLawful := by
  unfold Station.fetchNotice
  split <;> exact h

theorem readSlab (h : d.SawLawful) (code : Nat) : (d.readSlab code).dev.SawLawful := by
  unfold Station.readSlab
  repeat' split
  all_goals exact h

theorem withCursor (h : d.SawLawful) (n : Nat) : (d.withCursor n).SawLawful := h.same rfl rfl rfl

theorem setCursor (h : d.SawLawful) (slot : Nat) : (d.setCursor slot).dev.SawLawful := by
  unfold Station.setCursor
  split
  · exact h
  · exact h.withCursor slot

theorem walkSlabs (h : d.SawLawful) : d.walkSlabs.dev.SawLawful := by
  unfold Station.walkSlabs
  split <;> exact h.withCursor _

theorem readJob (h : d.SawLawful) (n : Nat) : (d.readJob n).dev.SawLawful := by
  unfold Station.readJob
  repeat' split
  all_goals exact h

theorem readCostLine (h : d.SawLawful) (n : Nat) : (d.readCostLine n).dev.SawLawful := by
  unfold Station.readCostLine
  repeat' split
  all_goals exact h

theorem readLedger (h : d.SawLawful) (n : Nat) : (d.readLedger n).dev.SawLawful := by
  unfold Station.readLedger
  split <;> exact h

theorem readSamples (h : d.SawLawful) : d.readSamples.dev.SawLawful := h.same rfl rfl rfl

theorem readPlan (h : d.SawLawful) : d.readPlan.dev.SawLawful := h.same rfl rfl rfl

theorem askRejoin (h : d.SawLawful) : d.askRejoin.dev.SawLawful := by
  unfold Station.askRejoin
  split
  · exact h
  · exact (h.same (b := d.blk.onHost (fun x => { x with rejoinPending := true })) rfl rfl rfl).settleRejoin

theorem askStatus (h : d.SawLawful) : d.askStatus.SawLawful := by
  unfold Station.askStatus
  split
  · exact sent (x := d.says .ok d.statusBytes) h
  · exact h

theorem badRequest (h : d.SawLawful) (code length : Byte) : (d.badRequest code length).SawLawful := by
  unfold Station.badRequest
  repeat' split
  · exact sent (x := d.refuses .inert) h
  · exact sent (x := d.refuses .badRequest) h
  · exact h

/-! ### The requests of planning and sawing, in the CUTTER role (R186) -/

/-- A CUTTER that is not INERT plans and saws (R49, R50). -/
theorem submitPiece (h : d.SawLawful) (hs : d.blk.saws = true) (piece job material thickness length width rotate : Nat) :
    (d.submitPiece piece job material thickness length width rotate).dev.SawLawful := by
  unfold Station.submitPiece
  repeat' split
  · exact h
  · exact h
  · exact h
  · refine Blocks.Lawful.searchOrLook (Blocks.Lawful.replan h ((Blocks.SawAside.refl d.blk).onPlanner _) hs ?_) d.shop
    exact h.mirror

theorem requestSubmit (h : d.SawLawful) {piece job material thickness length width rotate : Nat} :
    (d.request (Station.cutterOnly
      (Station.submitPiece piece job material thickness length width rotate))).SawLawful := by
  by_cases hm : d.blk.pres.mem = .inert
  · unfold Station.request
    repeat' split
    · exact sent (x := d.refuses .inert) h
    · exact h
  · refine h.request (fun k => ?_)
    unfold Station.cutterOnly
    split
    next => exact k
    next hr =>
      have hc : d.blk.pres.role = .cutter := by
        cases hrole : d.blk.pres.role with
        | cutter => rfl
        | plant => exact absurd hrole hr
      exact k.submitPiece ((Blocks.saws_iff d.blk).mpr ⟨hc, hm⟩) piece job material thickness length width rotate

theorem cancelPiece (h : d.SawLawful) (n : Nat) : (d.cancelPiece n).dev.SawLawful := by
  unfold Station.cancelPiece
  repeat' split
  · exact h
  · exact h
  · refine Blocks.Lawful.tuned h ⟨rfl, fun hp => ?_, id, fun p hp => ⟨p, hp, .refl p⟩, rfl, rfl, rfl⟩
    exact (congrArg _ hp).trans rfl

theorem sealPlan (h : d.SawLawful) : d.sealPlan.dev.SawLawful := by
  unfold Station.sealPlan
  split
  · exact h
  next p hp =>
    split
    next ho => exact Blocks.Lawful.sealNow h hp ho
    next => exact h

theorem goRequest (h : d.SawLawful) : d.goRequest.dev.SawLawful := by
  unfold Station.goRequest
  split
  next hst => exact Blocks.Lawful.goLoad h hst d.shop
  next hst => exact Blocks.Lawful.goIndex h hst d.shop
  all_goals exact h

theorem resumeRequest (h : d.SawLawful) : d.resumeRequest.dev.SawLawful := by
  unfold Station.resumeRequest
  split
  next hst => exact Blocks.Lawful.sawResume h hst.1 d.shop
  next => exact h

theorem abandonPlan (h : d.SawLawful) : d.abandonPlan.dev.SawLawful := by
  unfold Station.abandonPlan
  split
  · exact h
  next p hp =>
    split
    next => exact h
    next hc =>
      have hr : p.releasing = false := by
        by_contra hr
        exact hc (.inr (by simpa using hr))
      have hst : p.state = .loadWait ∨ p.state = .faulted := by
        by_contra hst
        exact hc (.inl (not_or.mp hst))
      repeat' split
      · exact Blocks.Lawful.abandonLost h hp hst hr d.shop
      · exact h
      · exact h
      · exact Blocks.Lawful.abandonQueued h hp hst hr d.shop

theorem clearCostLine (h : d.SawLawful) (n : Nat) : (d.clearCostLine n).dev.SawLawful := by
  unfold Station.clearCostLine
  repeat' split
  · exact h
  · exact h
  · exact h
  · exact (Blocks.Lawful.outside h ((Blocks.Outside.refl d.blk).onCost _)).search d.shop

/-! ## Every command -/

/-- A command that changes the part by `f` keeps the laws of the saw where `f` does. -/
theorem run {s t : State} {f : Station → Station} (e : s.run f = .next t)
    (hf : (f s.dev).SawLawful) : t.dev.SawLawful := by
  rw [State.run_eq] at e
  cases e
  exact hf

/-- A command of the blocks alone. -/
theorem runBlk {s t : State} {f : Shop → Blocks → Blocks} (e : s.runBlk f = .next t)
    (hf : (f s.dev.shop s.dev.blk).Lawful s.dev.shop) : t.dev.SawLawful := by
  rw [State.runBlk_eq] at e
  cases e
  exact hf

/-- A command of the blocks after which a REJOIN that waited takes effect (R23). -/
theorem runSettled {s t : State} {f : Shop → Blocks → Blocks}
    (e : s.run (fun d => (d.onBlk f).settleRejoin) = .next t) (hf : (f s.dev.shop s.dev.blk).Lawful s.dev.shop) :
    t.dev.SawLawful := by
  rw [State.run_eq] at e
  cases e
  exact settleRejoin (d := s.dev.onBlk f) hf

/-- A step of the receiver's states and flags. -/
theorem runLine {s t : State} {f : Line → Line} (e : s.run (Station.lineStep f) = .next t) (h : s.dev.SawLawful) :
    t.dev.SawLawful := by
  rw [State.run_eq] at e
  cases e
  unfold Station.lineStep
  split
  · exact Blocks.Lawful.outside h ((Blocks.Outside.refl _).onLine f)
  · exact h

end Station.SawLawful

end Sys2Proof.Machine

/-! O8. -/

namespace Sys2Proof.Machine

/-- Every command keeps the laws of the saw. -/
theorem exec_sawLawful {c : Instr} {s t : State} (e : exec c s = .next t) (hs : s.dev.shop.sound = true)
    (h : s.dev.SawLawful) : t.dev.SawLawful := by
  have stands := Blocks.SawStands.refl s.dev.blk
  have outside := Blocks.Outside.refl s.dev.blk
  cases c with
  | fullReset n p r =>
    cases e
    exact (Station.sawLawful_iff _).mp (Station.afterReset_sawSound n.toNat (roleOfPin p) r.toNat _ _ _)
  | receiveCharacter data mark stop => exact Station.SawLawful.run e (h.receive hs data mark stop)
  | lineIdle => exact Station.SawLawful.runLine e h
  | frameTimeLimit => exact Station.SawLawful.runLine e h
  | breakEvent =>
    rw [exec_breakEvent] at e
    refine Station.SawLawful.run e ?_
    split
    · exact (h.breakEvent hs).settleRejoin
    · exact h
  | breakEnd => exact Station.SawLawful.runLine e h
  | haltBreakEnd => exact Station.SawLawful.runLine e h
  | transmitStart => exact Station.SawLawful.runBlk e (Blocks.Lawful.outside h (outside.transmit s.dev.shop))
  | arbitrationLost => exact Station.SawLawful.runSettled e (Blocks.Lawful.outside h (outside.attemptEnds .lost s.dev.shop))
  | collision => exact Station.SawLawful.runSettled e (Blocks.Lawful.outside h (outside.attemptEnds .collision s.dev.shop))
  | sendCompleted => exact Station.SawLawful.runSettled e (Blocks.Lawful.stands h (stands.completes s.dev.shop))
  | yieldClear => exact Station.SawLawful.runLine e h
  | lineRestExpiry =>
    refine Station.SawLawful.runBlk e ?_
    split
    · exact h
    · exact (Blocks.Lawful.atDeadline h _).outside ((Blocks.Outside.refl _).onLine _)
  | budget | flowAsk | flowDrop | join | gone | rebase | slabAdd | claim | release | reclaim | consume | scrap
  | freeOrphanFrame | jobOpen | jobClose | costReport | hello | syncAsk | snap => exact Station.SawLawful.run e (h.frameArrives hs _)
  | askTimerExpiry => exact Station.SawLawful.run e (h.askExpires hs)
  | listenTimerExpiry =>
    exact Station.SawLawful.runBlk e (Blocks.Lawful.onExpiry h
      (fun _ x _ hx => hx.stands ((Blocks.SawStands.refl x).listenEnds _)) (fun _ => rfl))
  | helloTimerExpiry =>
    exact Station.SawLawful.runBlk e (Blocks.Lawful.onExpiry h
      (fun t x _ hx => hx.stands ((Blocks.SawStands.refl x).helloExpires t)) (fun _ => rfl))
  | memberSilent station =>
    exact Station.SawLawful.runBlk e (Blocks.Lawful.stands h (.silent station.toNat s.dev.shop s.dev.blk))
  | rejoinTakesEffect =>
    rw [exec_rejoinTakesEffect] at e
    refine Station.SawLawful.run e ?_
    split
    · exact h.rejoinNow
    · exact h
  | selFall =>
    refine Station.SawLawful.runBlk e ?_
    unfold Blocks.selFalls
    split
    · exact h
    · exact Blocks.Lawful.elsewhere h rfl rfl rfl
  | selRise => exact Station.SawLawful.runBlk e (Blocks.Lawful.elsewhere h rfl rfl rfl)
  | noticeRemoved => exact Station.SawLawful.runBlk e (Blocks.Lawful.elsewhere h rfl rfl rfl)
  | badRequest code length => exact Station.SawLawful.run e (h.badRequest code length)
  | status => exact Station.SawLawful.run e h.askStatus
  | fetchNotice => exact Station.SawLawful.run e (h.request Station.SawLawful.fetchNotice)
  | rejoin => exact Station.SawLawful.run e (h.request Station.SawLawful.askRejoin)
  | registerSlab => exact Station.SawLawful.run e (h.request (fun k => k.registerSlab _ _ _ _ _ _))
  | scrapSlab => exact Station.SawLawful.run e (h.request (fun k => k.onRecord _ _ _))
  | freeOrphan => exact Station.SawLawful.run e (h.request (fun k => k.onRecord _ _ _))
  | readSlab => exact Station.SawLawful.run e (h.request (fun k => k.readSlab _))
  | setCursor => exact Station.SawLawful.run e (h.request (fun k => k.setCursor _))
  | walkSlabs => exact Station.SawLawful.run e (h.request Station.SawLawful.walkSlabs)
  | submitPiece => exact Station.SawLawful.run e h.requestSubmit
  | cancelPiece => exact Station.SawLawful.run e (h.request (fun k => k.cutterOnly (fun k => k.cancelPiece _)))
  | readPlan => exact Station.SawLawful.run e (h.request (fun k => k.cutterOnly Station.SawLawful.readPlan))
  | sealPlan => exact Station.SawLawful.run e (h.request (fun k => k.cutterOnly Station.SawLawful.sealPlan))
  | go => exact Station.SawLawful.run e (h.request (fun k => k.cutterOnly Station.SawLawful.goRequest))
  | resume => exact Station.SawLawful.run e (h.request (fun k => k.cutterOnly Station.SawLawful.resumeRequest))
  | abandonPlan => exact Station.SawLawful.run e (h.request (fun k => k.cutterOnly Station.SawLawful.abandonPlan))
  | openJob => exact Station.SawLawful.run e (h.request (fun k => k.openJob _))
  | closeJob => exact Station.SawLawful.run e (h.request (fun k => k.closeJob _))
  | readJob => exact Station.SawLawful.run e (h.request (fun k => k.readJob _))
  | readCostLine => exact Station.SawLawful.run e (h.request (fun k => k.readCostLine _))
  | clearCostLine => exact Station.SawLawful.run e (h.request (fun k => k.clearCostLine _))
  | readLedger => exact Station.SawLawful.run e (h.request (fun k => k.readLedger _))
  | readSamples => exact Station.SawLawful.run e (h.request Station.SawLawful.readSamples)
  | sampleTrigger =>
    exact Station.SawLawful.runBlk e ((Blocks.Lawful.atDeadline h _).onMeas _)
  | analogReading value => exact Station.SawLawful.runSettled e (Blocks.Lawful.analog h value.toNat s.dev.shop)
  | jamTimerExpiry =>
    exact Station.SawLawful.runBlk e (Blocks.Lawful.onExpiry h (fun _ _ _ hx => (hx.onMeas _).tellJam) (fun _ => rfl))
  | dryTimerExpiry =>
    exact Station.SawLawful.runBlk e (Blocks.Lawful.onExpiry h (fun _ _ _ hx => (hx.onMeas _).tellDry) (fun _ => rfl))
  | flowPulse =>
    refine Station.SawLawful.runBlk e ?_
    split
    · exact Blocks.Lawful.onMeas h _
    · exact h
  | flowWindowEnd =>
    refine Station.SawLawful.runBlk e (Blocks.Lawful.onExpiry h (fun t x _ hx => ?_) (fun _ => rfl))
    dsimp only
    split
    · exact (hx.onMeas _).plantWindow _ _
    · exact hx.onMeas _
  | spacingTimerExpiry =>
    exact Station.SawLawful.runBlk e (Blocks.Lawful.onExpiry h
      (fun _ x _ hx => hx.outside (((Blocks.Outside.refl x).onPlant _).plantCompare _)) (fun _ => rfl))
  | sealingTimerExpiry =>
    refine Station.SawLawful.runBlk e (Blocks.Lawful.onExpiry h (fun _ x _ hx => ?_) (fun _ => rfl))
    have hx1 := hx.tuned (.setSealT x none)
    dsimp only
    split
    next p hp =>
      split
      next ho => exact hx1.sealNow hp ho
      next => exact hx1
    next => exact hx1
  | encCount => exact Station.SawLawful.runBlk e (Blocks.Lawful.encCount h s.dev.shop)
  | feedPulse =>
    refine Station.SawLawful.runBlk e ?_
    split
    next hf => exact (Blocks.Lawful.at_ h (Blocks.Lawful.saw h |>.feed hf) (by decide)).pulseBegins (Blocks.Lawful.saw h)
    next => exact h
  | stopInput asserted => exact Station.SawLawful.runBlk e (Blocks.Lawful.stopInput h asserted)
  | spinTimerExpiry =>
    exact Station.SawLawful.runBlk e (Blocks.Lawful.onExpiry h (fun _ _ _ hx => hx.spinExpires _) (fun _ => rfl))
  | holdTimerExpiry =>
    exact Station.SawLawful.runBlk e (Blocks.Lawful.onExpiry h (fun _ _ _ hx => hx.holdExpires) (fun _ => rfl))
  | idleSpinExpiry =>
    exact Station.SawLawful.runBlk e (Blocks.Lawful.onExpiry h
      (fun _ _ ht hx => hx.idleSpinExpires (Option.isSome_iff_exists.mpr ⟨_, ht⟩)) (fun _ => rfl))
  | dropTimerExpiry =>
    exact Station.SawLawful.runBlk e (Blocks.Lawful.onExpiry h (fun _ _ _ hx => hx.dropExpires _) (fun _ => rfl))
  | costClock =>
    exact Station.SawLawful.runBlk e (Blocks.Lawful.onExpiry h
      (fun _ x _ hx => (hx.outside ((Blocks.Outside.refl x).onCost _)).chargeNow) (fun _ => rfl))

/-- Settles O8: the front command keeps the laws (`exec_sawLawful`), and the tick moves the clock alone. -/
theorem stepKeepsTheSawLaws : Obligations.StepKeepsTheSawLaws := by
  intro s t hs hw e
  have h := (Station.sawLawful_iff s.dev).mp hw
  refine (Station.sawLawful_iff t.dev).mpr ?_
  unfold step at e
  split at e
  · cases e
    exact Blocks.Lawful.elsewhere h rfl rfl rfl
  · exact exec_sawLawful e hs h

end Sys2Proof.Machine

/-! O46: the offcut that a piece goes into (R129) and what the placement leaves (R130, R133). -/

namespace Sys2Proof.Machine

/-! ## The best offcut (R129) -/

theorem fitsAs_iff (l w long wide : Nat) : fitsAs l w long wide = true ↔ l ≤ long ∧ w ≤ wide := by simp [fitsAs]

theorem Piece.fits_iff (p : Piece) (x : Offcut) :
    p.fits x.length x.width = true ↔
      (p.length ≤ x.length ∧ p.width ≤ x.width) ∨ (p.rotate = true ∧ p.width ≤ x.length ∧ p.length ≤ x.width) := by
  simp [Piece.fits, fitsAs_iff]

/-- Among the offcuts of a list this is the smallest that the piece fits, the earliest among equals. -/
def Piece.IsBest (p : Piece) (l : List Offcut) : Option (Nat × Offcut) → Prop
  | none => ∀ x ∈ l, p.fits x.length x.width ≠ true
  | some (i, x) => l[i]? = some x ∧ p.fits x.length x.width = true ∧
      ∀ (j : Nat) (y : Offcut), l[j]? = some y → p.fits y.length y.width = true →
        x.length * x.width < y.length * y.width ∨ (x.length * x.width = y.length * y.width ∧ i ≤ j)

namespace Piece.IsBest

variable {p : Piece} {l : List Offcut} {x : Offcut}

/-- An offcut that the piece does not fit changes nothing. -/
theorem skip {best : Option (Nat × Offcut)} (h : p.IsBest l best) (hx : p.fits x.length x.width ≠ true) :
    p.IsBest (l ++ [x]) best := by
  cases best with
  | none =>
    intro y hy
    rcases List.mem_append.mp hy with hy | hy
    · exact h y hy
    · rw [List.mem_singleton.mp hy]
      exact hx
  | some a =>
    obtain ⟨hi, hfit, hbest⟩ := h
    refine ⟨List.getElem?_append_left (List.getElem?_eq_some_iff.mp hi).1 ▸ hi, hfit, fun j y hj hy => ?_⟩
    rcases Nat.lt_or_ge j l.length with hlt | hge
    · exact hbest j y ((List.getElem?_append_left hlt) ▸ hj) hy
    · rw [List.getElem?_append_right hge] at hj
      obtain rfl : x = y := by
        obtain ⟨hj', he⟩ := List.getElem?_eq_some_iff.mp hj
        simpa using he
      exact absurd hy hx

/-- The first offcut that fits. -/
theorem first (h : p.IsBest l none) (hx : p.fits x.length x.width = true) :
    p.IsBest (l ++ [x]) (some (l.length, x)) := by
  refine ⟨by simp, hx, fun j y hj hy => ?_⟩
  rcases Nat.lt_or_ge j l.length with hlt | hge
  · rw [List.getElem?_append_left hlt] at hj
    exact absurd hy (h y (List.mem_of_getElem? hj))
  · rw [List.getElem?_append_right hge] at hj
    obtain ⟨hj', he⟩ := List.getElem?_eq_some_iff.mp hj
    obtain rfl : x = y := by simpa using he
    exact .inr ⟨rfl, hge⟩

/-- A later offcut that fits takes the place of a larger one. -/
theorem next {i : Nat} {z : Offcut} (h : p.IsBest l (some (i, z))) (hx : p.fits x.length x.width = true) :
    p.IsBest (l ++ [x]) (if x.length * x.width < z.length * z.width then some (l.length, x) else some (i, z)) := by
  obtain ⟨hi, hfit, hbest⟩ := h
  have hlen : i < l.length := (List.getElem?_eq_some_iff.mp hi).1
  have split : ∀ (j : Nat) (y : Offcut), (l ++ [x])[j]? = some y → l[j]? = some y ∨ (y = x ∧ l.length ≤ j) := by
    intro j y hj
    rcases Nat.lt_or_ge j l.length with hlt | hge
    · exact .inl ((List.getElem?_append_left hlt) ▸ hj)
    · rw [List.getElem?_append_right hge] at hj
      obtain ⟨hj', he⟩ := List.getElem?_eq_some_iff.mp hj
      exact .inr ⟨by simpa using he.symm, hge⟩
  by_cases hlt : x.length * x.width < z.length * z.width
  · rw [if_pos hlt]
    refine ⟨by simp, hx, fun j y hj hy => ?_⟩
    rcases split j y hj with hj | ⟨rfl, hge⟩
    · have := hbest j y hj hy
      omega
    · exact .inr ⟨rfl, hge⟩
  · rw [if_neg hlt]
    refine ⟨List.getElem?_append_left hlen ▸ hi, hfit, fun j y hj hy => ?_⟩
    rcases split j y hj with hj | ⟨rfl, hge⟩
    · exact hbest j y hj hy
    · omega

end Piece.IsBest

/-- The search along the offcuts keeps the best of those behind it (R129). -/
theorem bestOffcut_isBest (p : Piece) (l : List Offcut) :
    ∀ (seen : List Offcut) (best : Option (Nat × Offcut)), p.IsBest seen best →
      p.IsBest (seen ++ l) (bestOffcut p l seen.length best) := by
  induction l with
  | nil =>
    intro seen best h
    rw [List.append_nil]
    exact h
  | cons x rest ih =>
    intro seen best h
    have go : ∀ best', p.IsBest (seen ++ [x]) best' →
        p.IsBest (seen ++ x :: rest) (bestOffcut p rest (seen.length + 1) best') := by
      intro best' h'
      have := ih (seen ++ [x]) best' h'
      rwa [List.append_assoc, List.length_append] at this
    unfold bestOffcut
    split
    next hx =>
      cases best with
      | none => exact go _ (h.first hx)
      | some a => exact go _ (h.next hx)
    next hx => exact go _ (h.skip hx)

theorem bestOffcut_best (p : Piece) (l : List Offcut) : p.IsBest l (bestOffcut p l 0 none) :=
  bestOffcut_isBest p l [] none (fun _ hx => absurd hx (List.not_mem_nil))

/-- No offcut takes the piece exactly where it fits none. -/
theorem bestOffcut_eq_none_iff (p : Piece) (l : List Offcut) :
    bestOffcut p l 0 none = none ↔ ∀ x ∈ l, p.fits x.length x.width ≠ true := by
  have h := bestOffcut_best p l
  constructor
  · intro hn
    rw [hn] at h
    exact h
  · intro hl
    cases hb : bestOffcut p l 0 none with
    | none => rfl
    | some a =>
      rw [hb] at h
      obtain ⟨hi, hfit, _⟩ := h
      exact absurd hfit (hl _ (List.mem_of_getElem? hi))

/-! ## The placement (R130) -/

theorem Piece.rotatedIn_eq (p : Piece) (x : Offcut) :
    p.rotatedIn x = decide (¬ (p.length ≤ x.length ∧ p.width ≤ x.width)) := by
  rw [decide_not, Bool.decide_and]
  rfl

/-- The offcuts that are kept: the ones that the cuts leave with both dimensions at least 100 mm (R130). -/
theorem offcutsFrom_eq (x : Offcut) (l w : Nat) :
    offcutsFrom x l w =
      (if l + 4 + 100 ≤ x.length ∧ 100 ≤ x.width then
        [{ x := x.x + l + 4, y := x.y, length := x.length - l - 4, width := x.width }] else []) ++
      (if 100 ≤ l ∧ w + 4 + 100 ≤ x.width then
        [{ x := x.x, y := x.y + w + 4, length := l, width := x.width - w - 4 }] else []) := by
  have hend : (l < x.length ∧ 100 ≤ x.length - l - 4 ∧ 100 ≤ x.width) ↔ (l + 4 + 100 ≤ x.length ∧ 100 ≤ x.width) := by
    omega
  have hside : (w < x.width ∧ 100 ≤ l ∧ 100 ≤ x.width - w - 4) ↔ (100 ≤ l ∧ w + 4 + 100 ≤ x.width) := by omega
  unfold offcutsFrom offcutsCut
  rw [List.filter_append]
  congr 1
  · by_cases h : l < x.length
    · simp only [h, true_and, if_true] at hend ⊢
      simp [List.filter_cons, ← hend]
    · rw [if_neg h, if_neg (fun k => h (hend.mpr k).1)]
      rfl
  · by_cases h : w < x.width
    · simp only [h, true_and, if_true] at hside ⊢
      simp [List.filter_cons, ← hside]
    · rw [if_neg h, if_neg (fun k => h (hside.mpr k).1)]
      rfl

/-- Settles O46: the choice is `bestOffcut_best`, and what the placement leaves is its definition with the kept offcuts
read off (`offcutsFrom_eq`). -/
theorem placementSplitsTheOffcut : Obligations.PlacementSplitsTheOffcut := by
  intro p q asGiven turned area
  refine ⟨?_, fun i x hbest => ?_⟩
  · rw [bestOffcut_eq_none_iff]
    refine forall₂_congr (fun x _ => ?_)
    rw [ne_eq, Piece.fits_iff, not_or]
  · have h := bestOffcut_best p q.offcuts
    rw [hbest] at h
    obtain ⟨hi, hfit, hmin⟩ := h
    refine ⟨hi, (p.fits_iff x).mp hfit, fun j y hj hy => hmin j y hj ((p.fits_iff y).mpr hy), ?_⟩
    intro l w rotated hway cut cuts endOffcut sideOffcut
    have hrot : p.rotatedIn x = rotated ∧ (if rotated then p.width else p.length) = l ∧
        (if rotated then p.length else p.width) = w := by
      rw [Piece.rotatedIn_eq]
      rcases hway with ⟨h, rfl, rfl, rfl⟩ | ⟨h, rfl, rfl, rfl⟩
      · exact ⟨decide_eq_false (not_not_intro h), rfl, rfl⟩
      · exact ⟨decide_eq_true h, rfl, rfl⟩
    obtain ⟨hr, hl, hw⟩ := hrot
    unfold Plan.place
    simp only [hr, hl, hw, offcutsFrom_eq, cutsFor, ← List.append_assoc]
    rfl

end Sys2Proof.Machine

/-! O47: a plan is sealed and handed to the sequencer (R131, R132, R141, R145). -/

namespace Sys2Proof.Machine

/-! ## Sealing -/

/-- A notice reads the membership and the host port alone (R191). -/
theorem Blocks.post_host_congr {b c : Blocks} (hm : c.pres.mem = b.pres.mem) (hh : c.host = b.host) (n : Notice) :
    (c.post n).host = (b.post n).host := by
  unfold Blocks.post
  rw [hm, hh]
  repeat' split
  · exact hh
  · rfl
  · rfl

/-- A notice may come before or after a change of the planner and the sequencer. -/
theorem Blocks.post_planner_saw (n : Notice) (b : Blocks) (p : Planner) (w : Saw) :
    { b.post n with planner := p, saw := w } = Blocks.post n { b with planner := p, saw := w } := by
  rw [Blocks.post_eq n b, Blocks.post_eq n { b with planner := p, saw := w },
    Blocks.post_host_congr (b := b) (c := { b with planner := p, saw := w }) rfl rfl]

theorem Plan.open_eq_false {q : Plan} (h : q.state ≠ .planning ∨ q.releasing = true) : q.open_ = false := by
  rw [Bool.eq_false_iff, ne_eq, Plan.open_iff]
  rintro ⟨h1, h2⟩
  rcases h with h | h
  · exact h h1
  · exact Bool.false_ne_true (h2.symm.trans h)

/-- The sequencer with a plan just taken up (R141, R145). -/
def Saw.taken (p : Plan) (w : Saw) : Saw :=
  { w with
    st := .loadWait
    plan := some
      { thickness := p.thickness, need := needOf p.thickness, baseFeed := baseFeedOf p.thickness, cuts := p.cuts }
    cur := if p.cuts = [] then 0 else 1
    entered := false, resumeCut := 0, resumeEntered := false, started := false, fault := none }

theorem Blocks.takeUp_eq (p : Plan) (b : Blocks) :
    b.takeUp p =
      { b with
        saw := b.saw.taken p
        planner.plan := b.planner.plan.map (fun q => { q.mirror .loadWait with fault := none }) } := by
  unfold Blocks.takeUp Saw.taken
  simp only [List.isEmpty_iff]
  rfl

/-- The plan leaves for the sequencer, and PLAN_SEALED is posted (R132, R145). -/
theorem Blocks.sealNow_eq {b : Blocks} {p : Plan} (hp : b.planner.plan = some p) (ho : p.open_ = true) :
    b.sealNow = Blocks.post (.planSealed p.slab p.placements.length p.cuts.length)
      { b with
        planner.sealT := none
        planner.plan := some { p with state := .loadWait, fault := none }
        saw := b.saw.taken p } := by
  obtain ⟨_, hrel⟩ := (Plan.open_iff p).mp ho
  have hmirror : ({ p with state := .sealed } : Plan).mirror .loadWait = { p with state := .loadWait } := by
    simp [Plan.mirror, hrel]
  unfold Blocks.sealNow
  rw [hp]
  dsimp only
  rw [Blocks.takeUp_eq, Blocks.post_saw, Blocks.post_planner, Blocks.onPlan_planner, Blocks.setSealT_planner, hp]
  simp only [Option.map_some, hmirror]
  exact Blocks.post_planner_saw _ _ _ _

/-! ## O47 -/

/-- What the sealing timer's expiry does (R131, R132): it stops, and an open plan is sealed. -/
def Blocks.sealExpires (b : Blocks) : Blocks :=
  match b.planner.plan with
  | none => b.setSealT none
  | some p => if p.open_ then (b.setSealT none).sealNow else b.setSealT none

theorem exec_sealingTimerExpiry (s : State) :
    exec .sealingTimerExpiry s = s.runBlk (fun _ b => b.onExpiry (·.planner.sealT) (fun _ x => x.sealExpires)) := by
  refine congrArg s.runBlk (funext fun _ => funext fun b => congrArg (Blocks.onExpiry _ · b) (funext fun _ => funext fun x => ?_))
  have hplan : (x.setSealT none).planner.plan = x.planner.plan := rfl
  unfold Blocks.sealExpires
  dsimp only
  rw [hplan]
  cases x.planner.plan <;> rfl

/-- A request of a CUTTER is served (R186). -/
theorem Station.cutterOnly_of_cutter {d : Station} (h : d.blk.pres.role = .cutter) (act : Station → Answer) :
    d.cutterOnly act = act d := if_neg (by simp [h])

/-- Settles O47: `Blocks.sealNow_eq`, at the request and at the timer's deadline. -/
theorem sealingHandsThePlanOver : Obligations.SealingHandsThePlanOver := by
  intro s b sealedWith
  have sealed : ∀ (x : Blocks) (p : Plan), x.planner.plan = some p → p.state = .planning → p.releasing = false →
      x.saw = b.saw → x.sealNow = sealedWith p x := by
    intro x p hp hst hrel hsaw
    rw [Blocks.sealNow_eq hp ((Plan.open_iff p).mpr ⟨hst, hrel⟩), hsaw]
    rfl
  refine ⟨fun ha hrole => ⟨fun p hp hst hrel => ?_, fun hno => ?_⟩, fun ht => ?_, fun d ht => ⟨fun p hp hst hrel => ?_, fun hno => ?_⟩⟩
  · have hact : Station.cutterOnly Station.sealPlan s.dev = Station.says .ok [] { s.dev with blk := sealedWith p b } := by
      rw [Station.cutterOnly_of_cutter hrole, ← sealed b p hp hst hrel rfl]
      unfold Station.sealPlan
      rw [show s.dev.blk.planner.plan = some p from hp]
      exact if_pos ((Plan.open_iff p).mpr ⟨hst, hrel⟩)
    refine (State.run_request ha _).trans ?_
    rw [hact]
    rfl
  · refine State.run_request_refuses ha ?_
    rw [Station.cutterOnly_of_cutter hrole]
    unfold Station.sealPlan
    cases hp : s.dev.blk.planner.plan with
    | none => rfl
    | some p => exact if_neg (by simp [Plan.open_eq_false (hno p hp)])
  · rw [exec_sealingTimerExpiry]
    exact State.runBlk_stopped ht
  · rw [exec_sealingTimerExpiry]
    refine State.runBlk_expires ht ?_
    unfold Blocks.sealExpires
    rw [Blocks.atDeadline_planner, show s.dev.blk.planner.plan = some p from hp]
    dsimp only
    rw [if_pos ((Plan.open_iff p).mpr ⟨hst, hrel⟩)]
    exact (sealed ((b.atDeadline d).setSealT none) p hp hst hrel rfl).trans rfl
  · rw [exec_sealingTimerExpiry]
    refine State.runBlk_expires ht ?_
    unfold Blocks.sealExpires
    rw [Blocks.atDeadline_planner]
    cases hp : s.dev.blk.planner.plan with
    | none => rfl
    | some p =>
      dsimp only
      rw [if_neg (by simp [Plan.open_eq_false (hno p hp)])]
      rfl

end Sys2Proof.Machine

/-! The search over the piece queue (R125, R126): what each piece comes to, and the record that the first winner takes. -/

namespace Sys2Proof.Machine

/-! ## The best record (R126) -/

/-- A record that a piece can be cut from (R126). -/
def Piece.Takes (p : Piece) (x : Slab) : Prop :=
  x.state = .free ∧ x.material = p.material ∧ x.thickness = p.thickness ∧
    ((p.length ≤ x.length ∧ p.width ≤ x.width) ∨ (p.rotate = true ∧ p.width ≤ x.length ∧ p.length ≤ x.width))

/-- The strict order of the records that a piece fits (R126). -/
def Slab.Better (x y : Slab) : Prop :=
  x.length * x.width < y.length * y.width ∨ (x.length * x.width = y.length * y.width ∧
    ((x.kind = .remnant ∧ y.kind = .sheet) ∨ (x.kind = y.kind ∧ x.id.code < y.id.code)))

theorem SlabKind.code_lt_iff (a b : SlabKind) : b.code < a.code ↔ a = .remnant ∧ b = .sheet := by
  cases a <;> cases b <;> decide

theorem Slab.betterThan_iff (x y : Slab) : x.betterThan y = true ↔ x.Better y := by
  simp [Slab.betterThan, Slab.Better, SlabKind.code_lt_iff]

/-- Of two records each better than the other there are none. -/
theorem Slab.Better.asymm {x y : Slab} (h : x.Better y) : ¬ y.Better x := by
  intro k
  rcases h with h | ⟨he, h⟩ <;> rcases k with k | ⟨_, k⟩
  · omega
  · omega
  · omega
  · rcases h with ⟨h1, h2⟩ | ⟨h1, h2⟩ <;> rcases k with ⟨k1, k2⟩ | ⟨k1, k2⟩
    · rw [h1] at k2
      cases k2
    · rw [h1, h2] at k1
      cases k1
    · rw [k1, k2] at h1
      cases h1
    · omega

/-- The better of the best so far and a record. -/
def keepBetter (best : Option Slab) (x : Slab) : Option Slab :=
  match best with
  | none => some x
  | some y => if x.betterThan y then some x else some y

theorem bestRecord_eq (p : Piece) (l : List Slab) :
    bestRecord p l =
      (l.filter (fun x => x.state == .free && x.material == p.material && x.thickness == p.thickness &&
        p.fits x.length x.width)).foldl keepBetter none := rfl

theorem foldl_keepBetter_some (l : List Slab) (y : Slab) : (l.foldl keepBetter (some y)).isSome = true := by
  induction l generalizing y with
  | nil => rfl
  | cons x rest ih =>
    show (rest.foldl keepBetter (if x.betterThan y then some x else some y)).isSome = true
    split
    · exact ih x
    · exact ih y

/-- A record better than every other of the list is what the list comes to. -/
theorem foldl_keepBetter_best {x : Slab} (l : List Slab) : ∀ best : Option Slab,
    (∀ y, best = some y → y = x ∨ x.Better y) → (∀ z ∈ l, z = x ∨ x.Better z) → (x ∈ l ∨ best = some x) →
      l.foldl keepBetter best = some x := by
  induction l with
  | nil => exact fun best _ _ hx => hx.resolve_left (List.not_mem_nil)
  | cons z rest ih =>
    intro best hbest hl hx
    have hz := hl z (List.mem_cons_self)
    have hstep : (∀ y, keepBetter best z = some y → y = x ∨ x.Better y) ∧ (z = x ∨ best = some x → keepBetter best z = some x) := by
      cases best with
      | none =>
        refine ⟨fun y hy => ?_, fun h => ?_⟩
        · cases hy
          exact hz
        · exact congrArg some (h.resolve_right (by simp))
      | some y =>
        have hy := hbest y rfl
        unfold keepBetter
        dsimp only
        by_cases hb : z.betterThan y = true
        · rw [if_pos hb]
          refine ⟨fun w hw => by cases hw; exact hz, fun h => ?_⟩
          rcases h with rfl | h
          · rfl
          · cases h
            refine congrArg some (hz.resolve_right (fun k => k.asymm ((Slab.betterThan_iff z x).mp hb)))
        · rw [if_neg hb]
          refine ⟨fun w hw => by cases hw; exact hy, fun h => ?_⟩
          rcases h with rfl | h
          · exact congrArg some (hy.resolve_right (fun k => hb ((Slab.betterThan_iff z y).mpr k)))
          · exact h
    refine ih _ hstep.1 (fun w hw => hl w (List.mem_cons_of_mem z hw)) ?_
    rcases hx with hx | hx
    · rcases List.mem_cons.mp hx with rfl | hx
      · exact .inr (hstep.2 (.inl rfl))
      · exact .inl hx
    · exact .inr (hstep.2 (.inr hx))

theorem Piece.takes_iff (p : Piece) (x : Slab) :
    (x.state == .free && x.material == p.material && x.thickness == p.thickness && p.fits x.length x.width) = true ↔
      p.Takes x := by
  simp [Piece.Takes, Piece.fits, fitsAs_iff, and_assoc]

theorem bestRecord_eq_none_iff (p : Piece) (l : List Slab) : bestRecord p l = none ↔ ∀ x ∈ l, ¬ p.Takes x := by
  rw [bestRecord_eq]
  constructor
  · intro h x hx ht
    cases hf : l.filter (fun x => x.state == .free && x.material == p.material && x.thickness == p.thickness &&
        p.fits x.length x.width) with
    | nil => exact List.filter_eq_nil_iff.mp hf x hx ((p.takes_iff x).mpr ht)
    | cons y rest =>
      rw [hf] at h
      have := foldl_keepBetter_some rest y
      rw [show rest.foldl keepBetter (some y) = none from h] at this
      cases this
  · intro h
    rw [List.filter_eq_nil_iff.mpr (fun x hx k => h x hx ((p.takes_iff x).mp k))]
    rfl

/-- The best record is the one that is better than every other that fits (R126). -/
theorem bestRecord_eq_some {p : Piece} {l : List Slab} {x : Slab} (hx : x ∈ l) (ht : p.Takes x)
    (hbest : ∀ z ∈ l, p.Takes z → z = x ∨ x.Better z) : bestRecord p l = some x := by
  rw [bestRecord_eq]
  refine foldl_keepBetter_best _ none (fun y hy => by cases hy) (fun z hz => ?_) (.inl ?_)
  · obtain ⟨hz, hk⟩ := List.mem_filter.mp hz
    exact hbest z hz ((p.takes_iff z).mp hk)
  · exact List.mem_filter.mpr ⟨hx, (p.takes_iff x).mpr ht⟩

/-! ## The pieces of a search (R126) -/

/-- The piece's job is OPEN (R120, R125). -/
def Piece.eligible (r : Replica) (y : Piece) : Bool := (r.job? y.job).any (fun x => x.state == .opened)

theorem jobOpenIn_eq (r : Replica) (y : Piece) : jobOpenIn y.job r = y.eligible r := by
  unfold jobOpenIn Piece.eligible
  cases r.job? y.job <;> rfl

theorem jobOpenIn_iff (n : Nat) (r : Replica) : jobOpenIn n r = true ↔ ∃ x, r.job? n = some x ∧ x.state = .opened := by
  unfold jobOpenIn
  cases r.job? n <;> simp

/-- A piece that a search claims for (R126). -/
def Piece.Wins (r : Replica) (c : CostUnit) (y : Piece) : Prop :=
  y.eligible r = true ∧ c.canReserve y.job = true ∧ ∃ x ∈ r.allSlabs, y.Takes x

/-- A piece after a search that it does not win (R126). -/
def Piece.passed (r : Replica) (c : CostUnit) (y : Piece) : Piece :=
  if y.eligible r then { y with state := if c.canReserve y.job then .waitStock else .waitLine } else y

/-- The notices of the pieces that come to wait for stock (R126). -/
def waitNotices (r : Replica) (c : CostUnit) (l : List Piece) : List Notice :=
  (l.filter (fun y => y.eligible r && c.canReserve y.job && y.state != .waitStock)).map (fun y => .pieceWaiting y.id y.job)

/-- The pieces before the winner are passed over. -/
theorem searchPieces_passed {r : Replica} {c : CostUnit} {before : List Piece} (rest : List Piece)
    (h : ∀ z ∈ before, ¬ z.Wins r c) :
    searchPieces r c (before ++ rest) =
      { pieces := before.map (Piece.passed r c) ++ (searchPieces r c rest).pieces
        posts := waitNotices r c before ++ (searchPieces r c rest).posts
        win := (searchPieces r c rest).win } := by
  induction before with
  | nil => rfl
  | cons y before ih =>
    have ih := ih (fun z hz => h z (List.mem_cons_of_mem y hz))
    have hy := h y (List.mem_cons_self)
    rw [List.cons_append, searchPieces, jobOpenIn_eq]
    by_cases he : y.eligible r = true
    · by_cases hc : c.canReserve y.job = true
      · have hnone : bestRecord y r.allSlabs = none :=
          (bestRecord_eq_none_iff _ _).mpr (fun x hx ht => hy ⟨he, hc, x, hx, ht⟩)
        rw [if_pos he, if_pos hc, hnone, ih]
        by_cases hw : y.state = .waitStock <;> simp [Piece.passed, waitNotices, he, hc, hw]
      · rw [if_pos he, if_neg hc, ih]
        simp [Piece.passed, waitNotices, he, hc]
    · rw [if_neg he, ih]
      simp [Piece.passed, waitNotices, he]

/-- The first winner is QUEUED again and takes its best record; the pieces behind it are not looked at. -/
theorem searchPieces_wins {r : Replica} {c : CostUnit} {before : List Piece} {y : Piece} {x : Slab} (after : List Piece)
    (h : ∀ z ∈ before, ¬ z.Wins r c) (hy : y.Wins r c) (hx : bestRecord y r.allSlabs = some x) :
    searchPieces r c (before ++ y :: after) =
      { pieces := before.map (Piece.passed r c) ++ { y with state := .queued } :: after
        posts := waitNotices r c before, win := some ({ y with state := .queued }, x) } := by
  obtain ⟨he, hc, _⟩ := hy
  rw [searchPieces_passed _ h, searchPieces, jobOpenIn_eq, if_pos he, if_pos hc, hx]
  simp

theorem searchPieces_none {r : Replica} {c : CostUnit} {l : List Piece} (h : ∀ z ∈ l, ¬ z.Wins r c) :
    searchPieces r c l = { pieces := l.map (Piece.passed r c), posts := waitNotices r c l, win := none } := by
  have := searchPieces_passed [] h
  rw [List.append_nil] at this
  rw [this]
  simp [searchPieces]

/-! ## The search of the planner (R125, R126) -/

theorem Blocks.postAll_eq (l : List Notice) : ∀ b : Blocks, b.postAll l = { b with host := (b.postAll l).host } := by
  induction l with
  | nil => exact fun b => rfl
  | cons n rest ih =>
    intro b
    refine (ih (b.post n)).trans ?_
    exact congrArg (fun x => { x with host := ((b.post n).postAll rest).host }) (Blocks.post_eq n b)

theorem Blocks.postAll_host_congr (l : List Notice) : ∀ {b c : Blocks}, c.pres.mem = b.pres.mem → c.host = b.host →
    (c.postAll l).host = (b.postAll l).host := by
  induction l with
  | nil => exact fun _ hh => hh
  | cons n rest ih =>
    intro b c hm hh
    exact ih (b := b.post n) (c := c.post n) (by rw [Blocks.post_pres, Blocks.post_pres]; exact hm)
      (Blocks.post_host_congr hm hh n)

/-- Notices may come before or after changes of the line, the planner and the cost unit. -/
theorem Blocks.postAll_line_planner_cost (l : List Notice) (b : Blocks) (line : Line) (p : Planner) (c : CostUnit) :
    { b.postAll l with line := line, planner := p, cost := c } =
      Blocks.postAll l { b with line := line, planner := p, cost := c } := by
  rw [Blocks.postAll_eq l b, Blocks.postAll_eq l { b with line := line, planner := p, cost := c },
    Blocks.postAll_host_congr l (b := b) (c := { b with line := line, planner := p, cost := c }) rfl rfl]

/-- A search runs at a LIVE planner without a plan or a slab record (R125). -/
structure Blocks.Searches (sh : Shop) (b : Blocks) : Prop where
  plans : b.plans = true
  plan : b.planner.plan = none
  live : live sh b = true
  holds : sh.rep.holds b.pres.station = false

namespace Blocks.Searches

variable {sh : Shop} {b : Blocks}

theorem search_eq (h : b.Searches sh) :
    b.search sh =
      (let f := searchPieces sh.rep b.cost b.planner.pieces
       let b1 := (b.onPlanner (fun p => { p with pieces := f.pieces })).postAll f.posts
       match f.win with
       | none => b1
       | some (p, x) =>
         ((b1.onCost (CostUnit.reserve p.job)).setPlan (some (Plan.claimed p x))).offer .planner
           (mkFrame .claim (bytes2 x.id.code))) :=
  if_pos (by simp [h.plans, h.plan, h.live, h.holds])

/-- No piece wins. -/
theorem search_none (h : b.Searches sh) (hl : ∀ z ∈ b.planner.pieces, ¬ z.Wins sh.rep b.cost) :
    b.search sh =
      Blocks.postAll (waitNotices sh.rep b.cost b.planner.pieces)
        { b with planner.pieces := b.planner.pieces.map (Piece.passed sh.rep b.cost) } := by
  rw [h.search_eq, searchPieces_none hl]
  rfl

/-- The first winner claims its record. -/
theorem search_wins (h : b.Searches sh) {before after : List Piece} {y : Piece} {x : Slab}
    (hq : b.planner.pieces = before ++ y :: after) (hl : ∀ z ∈ before, ¬ z.Wins sh.rep b.cost)
    (hy : y.Wins sh.rep b.cost) (hx : bestRecord y sh.rep.allSlabs = some x) :
    b.search sh =
      Blocks.postAll (waitNotices sh.rep b.cost before)
        { b with
          planner.pieces := before.map (Piece.passed sh.rep b.cost) ++ { y with state := .queued } :: after
          planner.plan := some (Plan.claimed { y with state := .queued } x)
          cost := b.cost.reserve y.job
          line := b.line.offer .planner (mkFrame .claim (bytes2 x.id.code)) } := by
  have hmem : b.pres.mem = .member := by simpa [live, Blocks.isMember] using (Bool.and_eq_true_iff.mp h.live).1
  rw [h.search_eq, hq, searchPieces_wins after hl hy hx]
  dsimp only
  have hoffers : b.pres.mem.offers = true := by
    rw [hmem]
    rfl
  let passed := b.onPlanner (fun p =>
    { p with pieces := before.map (Piece.passed sh.rep b.cost) ++ { y with state := .queued } :: after })
  let told := passed.postAll (waitNotices sh.rep b.cost before)
  have hpassed : told = { passed with host := told.host } := Blocks.postAll_eq _ passed
  have hline : told.line = b.line := by rw [hpassed]; rfl
  have hplanner : told.planner = passed.planner := by rw [hpassed]
  have hcost : told.cost = b.cost := by rw [hpassed]; rfl
  refine (Blocks.offer_of_offers ?_ _ _).trans (Eq.trans ?_ (Blocks.postAll_line_planner_cost
    (waitNotices sh.rep b.cost before) passed (b.line.offer .planner (mkFrame .claim (bytes2 x.id.code)))
    { passed.planner with plan := some (Plan.claimed { y with state := .queued } x) } (b.cost.reserve y.job)))
  · rw [Blocks.setPlan_pres, Blocks.onCost_pres]
    exact (congrArg (fun z => Membership.offers (Blocks.pres z).mem) hpassed).trans hoffers
  · show { told with
      line := told.line.offer .planner (mkFrame .claim (bytes2 x.id.code))
      planner := { told.planner with plan := some (Plan.claimed { y with state := .queued } x) }
      cost := told.cost.reserve y.job } = _
    rw [hline, hplanner, hcost]

end Blocks.Searches

/-- With a plan, with a slab record or not LIVE there is no search (R125). -/
theorem Blocks.search_stands {sh : Shop} {b : Blocks}
    (h : b.planner.plan ≠ none ∨ live sh b = false ∨ sh.rep.holds b.pres.station = true) : b.search sh = b := by
  refine if_neg ?_
  simp only [Bool.and_eq_true, Option.isNone_iff_eq_none, Bool.not_eq_true']
  rintro ⟨⟨⟨_, hp⟩, hl⟩, hh⟩
  rcases h with h | h | h
  · exact h hp
  · exact Bool.false_ne_true (h.symm.trans hl)
  · exact Bool.false_ne_true (hh.symm.trans h)

end Sys2Proof.Machine

/-! Looks (R131): which candidate is placed, when the plan is sealed and when it waits. -/

namespace Sys2Proof.Machine

/-! ## Candidates (R131) -/

/-- A piece that the plan's slab may take (R131). -/
def Piece.IsCandidate (r : Replica) (q : Plan) (y : Piece) : Prop :=
  y.eligible r = true ∧ y.material = q.material ∧ y.thickness = q.thickness

/-- A piece that an open offcut takes, with room for its cost line (R129, R131). -/
def Piece.Placeable (c : CostUnit) (q : Plan) (y : Piece) : Prop :=
  (bestOffcut y q.offcuts 0 none).isSome = true ∧ c.canReserve y.job = true

theorem Piece.isCandidate_iff (r : Replica) (q : Plan) (y : Piece) :
    (jobOpenIn y.job r && y.material == q.material && y.thickness == q.thickness) = true ↔ y.IsCandidate r q := by
  simp [Piece.IsCandidate, jobOpenIn_eq, and_assoc]

theorem mem_candidates_iff {r : Replica} {q : Plan} {l : List Piece} {y : Piece} :
    y ∈ candidates r q l ↔ y ∈ l ∧ y.IsCandidate r q := by
  unfold candidates
  rw [List.mem_filter, Piece.isCandidate_iff]

theorem candidates_eq_nil_iff {r : Replica} {q : Plan} {l : List Piece} :
    candidates r q l = [] ↔ ∀ y ∈ l, ¬ y.IsCandidate r q := by
  simp [List.eq_nil_iff_forall_not_mem, mem_candidates_iff]

theorem candidates_append (r : Replica) (q : Plan) (l m : List Piece) :
    candidates r q (l ++ m) = candidates r q l ++ candidates r q m := List.filter_append ..

theorem candidates_cons_of {r : Replica} {q : Plan} {y : Piece} (h : y.IsCandidate r q) (l : List Piece) :
    candidates r q (y :: l) = y :: candidates r q l := List.filter_cons_of_pos ((y.isCandidate_iff r q).mpr h)

theorem firstPlaceable_skip {c : CostUnit} {q : Plan} {y : Piece} (h : ¬ y.Placeable c q) (l : List Piece) :
    firstPlaceable c q (y :: l) = firstPlaceable c q l := by
  rw [firstPlaceable]
  cases hb : bestOffcut y q.offcuts 0 none with
  | none => rfl
  | some a => exact if_neg (fun hc => h ⟨by rw [hb]; rfl, hc⟩)

theorem firstPlaceable_passed {c : CostUnit} {q : Plan} {before : List Piece} (rest : List Piece)
    (h : ∀ z ∈ before, ¬ z.Placeable c q) : firstPlaceable c q (before ++ rest) = firstPlaceable c q rest := by
  induction before with
  | nil => rfl
  | cons z before ih =>
    rw [List.cons_append, firstPlaceable_skip (h z (List.mem_cons_self))]
    exact ih (fun w hw => h w (List.mem_cons_of_mem z hw))

theorem firstPlaceable_none {c : CostUnit} {q : Plan} {l : List Piece} (h : ∀ z ∈ l, ¬ z.Placeable c q) :
    firstPlaceable c q l = none := by
  have := firstPlaceable_passed [] h
  rwa [List.append_nil] at this

theorem firstPlaceable_here {c : CostUnit} {q : Plan} {y : Piece} {i : Nat} {x : Offcut}
    (hb : bestOffcut y q.offcuts 0 none = some (i, x)) (hc : c.canReserve y.job = true) (l : List Piece) :
    firstPlaceable c q (y :: l) = some (y, i, x) := by
  unfold firstPlaceable
  rw [hb]
  exact if_pos hc

/-- The first placeable candidate of the queue (R131). -/
theorem firstPlaceable_candidates {r : Replica} {c : CostUnit} {q : Plan} {before : List Piece} {y : Piece} {i : Nat}
    {x : Offcut} (h : ∀ z ∈ before, z.IsCandidate r q → ¬ z.Placeable c q) (hy : y.IsCandidate r q)
    (hb : bestOffcut y q.offcuts 0 none = some (i, x)) (hc : c.canReserve y.job = true) (after : List Piece) :
    firstPlaceable c q (candidates r q (before ++ y :: after)) = some (y, i, x) := by
  rw [candidates_append, candidates_cons_of hy, firstPlaceable_passed, firstPlaceable_here hb hc]
  intro z hz
  obtain ⟨hz, hcand⟩ := mem_candidates_iff.mp hz
  exact h z hz hcand

/-! ## One look (R131) -/

/-- A LIVE planner looks with an open plan (R131). -/
structure Blocks.Looks (sh : Shop) (q : Plan) (b : Blocks) : Prop where
  plan : b.planner.plan = some q
  isOpen : q.open_ = true
  live : live sh b = true

/-- With no open plan, and not LIVE, nothing is looked for (R131, log 16). -/
theorem Blocks.look_stands {sh : Shop} {b : Blocks}
    (h : (∀ q, b.planner.plan = some q → q.open_ = false) ∨ live sh b = false) : b.look sh = b := by
  unfold Blocks.look
  split
  · unfold Blocks.lookUpTo
    split
    · rfl
    next q hq =>
      refine if_neg (fun k => ?_)
      obtain ⟨ho, hl⟩ := Bool.and_eq_true_iff.mp k
      rcases h with h | h
      · exact Bool.false_ne_true ((h q hq).symm.trans ho)
      · exact Bool.false_ne_true (h.symm.trans hl)
  · rfl

namespace Blocks.Looks

variable {sh : Shop} {q : Plan} {b : Blocks}

theorem lookUpTo_succ (h : b.Looks sh q) (n : Nat) :
    b.lookUpTo sh (n + 1) =
      if 6 ≤ q.placements.length || q.offcuts.isEmpty then b.sealNow
      else
        match firstPlaceable b.cost q (candidates sh.rep q b.planner.pieces) with
        | some (p, i, x) => Blocks.lookUpTo sh n ((b.onCost (CostUnit.reserve p.job)).placePiece p i x)
        | none =>
          if (candidates sh.rep q b.planner.pieces).isEmpty then
            (if b.planner.sealT.isSome then b else b.setSealT (b.after 2000))
          else b.sealNow := by
  rw [Blocks.lookUpTo, h.plan]
  exact if_pos (by rw [h.isOpen, h.live]; rfl)

/-- No place for another piece is left (R131). -/
theorem full (h : b.Looks sh q) (n : Nat) (hfull : ¬ (q.placements.length < 6 ∧ q.offcuts ≠ [])) :
    b.lookUpTo sh (n + 1) = b.sealNow := by
  rw [h.lookUpTo_succ]
  refine if_pos ?_
  rw [Bool.or_eq_true, decide_eq_true_eq, List.isEmpty_iff]
  by_contra hno
  obtain ⟨h1, h2⟩ := not_or.mp hno
  exact hfull ⟨by omega, h2⟩

theorem room (h : b.Looks sh q) (n : Nat) (hroom : q.placements.length < 6 ∧ q.offcuts ≠ []) :
    b.lookUpTo sh (n + 1) =
      match firstPlaceable b.cost q (candidates sh.rep q b.planner.pieces) with
      | some (p, i, x) => Blocks.lookUpTo sh n ((b.onCost (CostUnit.reserve p.job)).placePiece p i x)
      | none =>
        if (candidates sh.rep q b.planner.pieces).isEmpty then
          (if b.planner.sealT.isSome then b else b.setSealT (b.after 2000))
        else b.sealNow := by
  rw [h.lookUpTo_succ]
  refine if_neg ?_
  rw [Bool.or_eq_true, decide_eq_true_eq, List.isEmpty_iff]
  exact not_or.mpr ⟨by omega, hroom.2⟩

/-- With no candidate the sealing timer runs (R131). -/
theorem waits (h : b.Looks sh q) (n : Nat) (hroom : q.placements.length < 6 ∧ q.offcuts ≠ [])
    (hno : ∀ y ∈ b.planner.pieces, ¬ y.IsCandidate sh.rep q) :
    b.lookUpTo sh (n + 1) = b.setSealT (some (b.planner.sealT.getD (b.now + 2000))) := by
  rw [h.room n hroom, candidates_eq_nil_iff.mpr hno]
  show (if b.planner.sealT.isSome then b else b.setSealT (b.after 2000)) = _
  cases hs : b.planner.sealT with
  | none => rfl
  | some t =>
    show b = _
    rw [show some ((some t).getD (b.now + 2000)) = b.planner.sealT from hs.symm]
    rfl

/-- With candidates that can not be placed the plan is sealed (R131). -/
theorem seals (h : b.Looks sh q) (n : Nat) (hroom : q.placements.length < 6 ∧ q.offcuts ≠ [])
    (hsome : ∃ y ∈ b.planner.pieces, y.IsCandidate sh.rep q)
    (hno : ∀ y ∈ b.planner.pieces, y.IsCandidate sh.rep q → ¬ y.Placeable b.cost q) : b.lookUpTo sh (n + 1) = b.sealNow := by
  obtain ⟨y, hy, hc⟩ := hsome
  have hcands : candidates sh.rep q b.planner.pieces ≠ [] := fun k => candidates_eq_nil_iff.mp k y hy hc
  rw [h.room n hroom, firstPlaceable_none]
  · exact if_neg (by simpa using hcands)
  · intro z hz
    obtain ⟨hz, hcand⟩ := mem_candidates_iff.mp hz
    exact hno z hz hcand

/-- The first candidate that can be placed is placed, and the look goes on (R130, R131). -/
theorem places (h : b.Looks sh q) (n : Nat) (hroom : q.placements.length < 6 ∧ q.offcuts ≠ [])
    {before after : List Piece} {y : Piece} {i : Nat} {x : Offcut} (hq : b.planner.pieces = before ++ y :: after)
    (hno : ∀ z ∈ before, z.IsCandidate sh.rep q → ¬ z.Placeable b.cost q) (hy : y.IsCandidate sh.rep q)
    (hc : b.cost.canReserve y.job = true) (hb : bestOffcut y q.offcuts 0 none = some (i, x)) :
    b.lookUpTo sh (n + 1) = Blocks.lookUpTo sh n ((b.onCost (CostUnit.reserve y.job)).placePiece y i x) := by
  rw [h.room n hroom, hq, firstPlaceable_candidates hno hy hb hc after]

end Blocks.Looks

/-! ## What looks keep -/

/-- A placed piece (R130): the queue without it, the plan with it, the sealing timer stopped, PIECE_PLACED posted. -/
theorem Blocks.placePiece_eq {b : Blocks} {q : Plan} (hp : b.planner.plan = some q) (p : Piece) (i : Nat) (x : Offcut) :
    b.placePiece p i x =
      Blocks.post (.piecePlaced p.id q.slab (q.placements.length + 1) (p.rotatedIn x))
        { b with
          planner :=
            { b.planner with
              pieces := b.planner.pieces.filter (fun a => a.id != p.id), plan := some (q.place p i x), sealT := none }
          cost := b.cost.joined p.job (q.placements.length + 1) } := by
  unfold Blocks.placePiece
  rw [hp]
  rfl

/-- The planner after a look: pieces leave the queue alone, and an open plan takes more placements, whatever follows. -/
structure Blocks.Fills (b c : Blocks) : Prop where
  pieces : c.planner.pieces.Sublist b.planner.pieces
  placements : ∀ q, b.planner.plan = some q → ∃ p, c.planner.plan = some p ∧ q.placements <+: p.placements

theorem Blocks.Fills.refl (b : Blocks) : b.Fills b :=
  ⟨List.Sublist.refl _, fun q hq => ⟨q, hq, List.prefix_refl _⟩⟩

theorem Blocks.Fills.trans {a b c : Blocks} (h : a.Fills b) (k : b.Fills c) : a.Fills c := by
  refine ⟨k.pieces.trans h.pieces, fun q hq => ?_⟩
  obtain ⟨p, hp, hpre⟩ := h.placements q hq
  obtain ⟨p', hp', hpre'⟩ := k.placements p hp
  exact ⟨p', hp', hpre.trans hpre'⟩

theorem Blocks.Fills.sealNow {b : Blocks} {q : Plan} (hp : b.planner.plan = some q) (ho : q.open_ = true) :
    b.Fills b.sealNow := by
  rw [Blocks.sealNow_eq hp ho]
  refine ⟨by simp, fun r hr => ⟨{ q with state := .loadWait, fault := none }, by simp, ?_⟩⟩
  rw [show r = q from Option.some.inj (hr.symm.trans hp)]

theorem Blocks.Fills.placePiece (b : Blocks) (p : Piece) (i : Nat) (x : Offcut) : b.Fills (b.placePiece p i x) := by
  cases hp : b.planner.plan with
  | none =>
    have h : b.placePiece p i x = b := by
      unfold Blocks.placePiece
      rw [hp]
    rw [h]
    exact .refl b
  | some q =>
    rw [Blocks.placePiece_eq hp]
    refine ⟨by simp, fun r hr => ⟨q.place p i x, by simp, ?_⟩⟩
    rw [show r = q from Option.some.inj (hr.symm.trans hp)]
    exact List.prefix_append _ _

theorem Blocks.Fills.lookUpTo (sh : Shop) (n : Nat) : ∀ b : Blocks, b.Fills (b.lookUpTo sh n) := by
  induction n with
  | zero => exact fun b => .refl b
  | succ n ih =>
    intro b
    unfold Blocks.lookUpTo
    split
    · exact .refl b
    next q hp =>
      split
      next hc =>
        have ho : q.open_ = true := (Bool.and_eq_true_iff.mp hc).1
        split
        · exact .sealNow hp ho
        · dsimp only
          split
          next y i x _ =>
            have h0 : b.Fills (b.onCost (CostUnit.reserve y.job)) := ⟨(Blocks.Fills.refl b).pieces, (Blocks.Fills.refl b).placements⟩
            exact (h0.trans (.placePiece _ y i x)).trans (ih _)
          next =>
            repeat' split
            · exact .refl b
            · exact ⟨List.Sublist.refl _, fun r hr => ⟨r, hr, List.prefix_refl _⟩⟩
            · exact .sealNow hp ho
      next => exact .refl b

theorem Blocks.Fills.look (sh : Shop) (b : Blocks) : b.Fills (b.look sh) := by
  unfold Blocks.look
  split
  · exact .lookUpTo sh 7 b
  · exact .refl b

end Sys2Proof.Machine

/-! O45: SUBMIT_PIECE and CANCEL_PIECE (R119 to R121), with the search (R125, R126) or the look (R131) that a new piece
starts. -/

namespace Sys2Proof.Machine

/-! ## The checks of the piece requests (R119 to R121) -/

theorem Planner.holdsPiece_iff (n : Nat) (p : Planner) :
    p.holdsPiece n = true ↔ (∃ x ∈ p.pieces, x.id = n) ∨ ∃ x ∈ p.placements, x.piece.id = n := by
  simp [Planner.holdsPiece]

theorem Planner.claimsFor_iff (n : Nat) (p : Planner) :
    p.claimsFor n = true ↔ ∃ q, p.plan = some q ∧ q.state = .claiming ∧ q.piece = some n := by
  unfold Planner.claimsFor
  cases p.plan <;> simp

theorem Station.cancelPiece_eq (n : Nat) (d : Station) :
    d.cancelPiece n =
      if !d.blk.planner.holdsPiece n then d.refuses .notFound
      else if d.blk.planner.placements.any (fun a => a.piece.id == n) || d.blk.planner.claimsFor n then
        d.refuses .wrongState
      else
        Station.says .ok []
          { d with blk := d.blk.onPlanner (fun p => { p with pieces := p.pieces.filter (fun a => a.id != n) }) } := rfl

/-- The queue with a new piece at its end (R120). -/
def Blocks.withPiece (p : Piece) (b : Blocks) : Blocks :=
  { b with planner.pieces := b.planner.pieces ++ [p], planner.nextSub := b.planner.nextSub + 1 }

namespace Station

variable {d : Station} {piece job m t l w rotate : Nat}

theorem submitPiece_badField (h : pieceFieldsOk piece job m t l w rotate = false ∨ d.blk.planner.holdsPiece piece = true) :
    d.submitPiece piece job m t l w rotate = d.refuses .badField := by
  refine if_pos ?_
  rcases h with h | h <;> simp [h]

/-- A piece in its ranges, of an id not held (R119). -/
structure TakesPiece (d : Station) (piece job m t l w rotate : Nat) : Prop where
  fields : pieceFieldsOk piece job m t l w rotate = true
  id : d.blk.planner.holdsPiece piece = false

namespace TakesPiece

theorem submitPiece_eq (h : d.TakesPiece piece job m t l w rotate) :
    d.submitPiece piece job m t l w rotate =
      if !jobOpenIn job d.shop.rep then d.refuses .notFound
      else if 32 ≤ d.blk.planner.pieces.length + d.blk.planner.placements.length then d.refuses .full
      else
        Station.says .ok []
          { d with
            blk := (d.blk.withPiece
              { id := piece, job := job, material := m, thickness := t, length := l, width := w, rotate := rotate == 1
                state := .queued, sub := d.blk.planner.nextSub }).searchOrLook d.shop } :=
  if_neg (by simp [h.fields, h.id])

theorem notFound (h : d.TakesPiece piece job m t l w rotate) (hj : jobOpenIn job d.shop.rep = false) :
    d.submitPiece piece job m t l w rotate = d.refuses .notFound := by
  rw [h.submitPiece_eq]
  exact if_pos (by simp [hj])

theorem full (h : d.TakesPiece piece job m t l w rotate) (hj : jobOpenIn job d.shop.rep = true)
    (hfull : 32 ≤ d.blk.planner.pieces.length + d.blk.planner.placements.length) :
    d.submitPiece piece job m t l w rotate = d.refuses .full := by
  rw [h.submitPiece_eq, if_neg (by simp [hj])]
  exact if_pos hfull

theorem ok (h : d.TakesPiece piece job m t l w rotate) (hj : jobOpenIn job d.shop.rep = true)
    (hroom : ¬ 32 ≤ d.blk.planner.pieces.length + d.blk.planner.placements.length) :
    d.submitPiece piece job m t l w rotate =
      Station.says .ok []
        { d with
          blk := (d.blk.withPiece
            { id := piece, job := job, material := m, thickness := t, length := l, width := w, rotate := rotate == 1
              state := .queued, sub := d.blk.planner.nextSub }).searchOrLook d.shop } := by
  rw [h.submitPiece_eq, if_neg (by simp [hj])]
  exact if_neg hroom

end TakesPiece

end Station

/-! ## The plan after a look -/

namespace Blocks

variable {sh : Shop} {b : Blocks} {q : Plan}

/-- A sealed plan waits for GO, and the queue stands (R132, R145). -/
theorem sealNow_sealed (hp : b.planner.plan = some q) (ho : q.open_ = true) :
    (b.sealNow.planner.sealT = none ∧ b.sealNow.saw.st = .loadWait ∧
      b.sealNow.planner.plan = some { q with state := .loadWait, fault := none }) ∧
      b.sealNow.planner.pieces = b.planner.pieces := by
  rw [sealNow_eq hp ho]
  simp [Saw.taken]

/-- An open plan with no place left is sealed by a look (R131). -/
theorem Looks.sealed_of_full (h : b.Looks sh q) (n : Nat) (hfull : 6 ≤ q.placements.length ∨ q.offcuts = []) :
    (b.lookUpTo sh (n + 1)).planner.sealT = none ∧ (b.lookUpTo sh (n + 1)).saw.st = .loadWait ∧
      (b.lookUpTo sh (n + 1)).planner.plan = some { q with state := .loadWait, fault := none } := by
  rw [h.full n (fun k => hfull.elim (fun h6 => by omega) k.2)]
  exact (sealNow_sealed h.plan h.isOpen).1

/-- An open plan with room and an empty queue waits for pieces (R131). -/
theorem Looks.waits_alone (h : b.Looks sh q) (n : Nat) (hroom : q.placements.length < 6 ∧ q.offcuts ≠ [])
    (hp : b.planner.pieces = []) (ht : b.planner.sealT = none) :
    (b.lookUpTo sh (n + 1)).saw = b.saw ∧ (b.lookUpTo sh (n + 1)).planner.plan = some q ∧
      (b.lookUpTo sh (n + 1)).planner.sealT = some (b.now + 2000) := by
  rw [h.waits n hroom (by simp [hp]), ht]
  exact ⟨rfl, h.plan, rfl⟩

/-- The notice of a placement is the first of its look (R130, log 6). -/
theorem placePiece_posts (hm : b.pres.mem ≠ .inert) (hp : b.planner.plan = some q) (y : Piece) (i : Nat) (x : Offcut)
    (n : Nat) (hroom : b.host.notices.length < 16) :
    b.host.notices ++ [.piecePlaced y.id q.slab (q.placements.length + 1) (y.rotatedIn x)] <+:
      (Blocks.lookUpTo sh n (b.placePiece y i x)).host.notices := by
  have hn : (b.placePiece y i x).host.notices =
      b.host.notices ++ [.piecePlaced y.id q.slab (q.placements.length + 1) (y.rotatedIn x)] := by
    rw [placePiece_eq hp]
    exact post_notices (by exact hm) (by exact hroom) _
  exact hn ▸ (Moves.lookUpTo sh n (Moves.refl false (b.placePiece y i x))).notices

/-- The placed piece has left the queue, and its placement stands in the plan, whatever the look does next. -/
theorem placePiece_fills (hp : b.planner.plan = some q) (y : Piece) (i : Nat) (x : Offcut) (n : Nat) :
    (∀ z ∈ (Blocks.lookUpTo sh n (b.placePiece y i x)).planner.pieces, z.id ≠ y.id) ∧
      ∃ p, (Blocks.lookUpTo sh n (b.placePiece y i x)).planner.plan = some p ∧
        (q.place y i x).placements <+: p.placements := by
  have h := Fills.lookUpTo sh n (b.placePiece y i x)
  have heq := placePiece_eq hp y i x
  refine ⟨fun z hz => ?_, h.placements _ (by rw [heq, post_planner])⟩
  have hmem := h.pieces.subset hz
  rw [heq, post_planner] at hmem
  simpa using (List.mem_filter.mp hmem).2

/-- What a placement leaves for the look that follows it (R130, R131). -/
structure Placed (b : Blocks) (q : Plan) (y : Piece) (c : Blocks) : Prop where
  pieces : c.planner.pieces = b.planner.pieces.filter (fun a => a.id != y.id)
  plan : c.planner.plan = some q
  sealT : c.planner.sealT = none
  saw : c.saw = b.saw
  pres : c.pres = b.pres
  now : c.now = b.now

theorem placePiece_placed (hp : b.planner.plan = some q) (y : Piece) (i : Nat) (x : Offcut) :
    b.Placed (q.place y i x) y (b.placePiece y i x) := by
  rw [placePiece_eq hp]
  constructor <;> simp

end Blocks

/-! ## O45 -/

/-- A request of a CUTTER that changes the blocks alone. -/
theorem State.run_cutter {s : State} (ha : s.asked) (hrole : s.dev.blk.pres.role = .cutter) {act : Station → Answer}
    {st : Status} {payload : List Byte} {c : Blocks} (h : act s.dev = Station.says st payload { s.dev with blk := c }) :
    s.run (Station.request (Station.cutterOnly act)) = .next ({ s with dev.blk := c }.answered st payload) := by
  rw [State.run_request ha, Station.cutterOnly_of_cutter hrole, h]
  rfl

theorem State.run_cutter_refuses {s : State} (ha : s.asked) (hrole : s.dev.blk.pres.role = .cutter)
    {act : Station → Answer} {st : Status} (h : act s.dev = s.dev.refuses st) :
    s.run (Station.request (Station.cutterOnly act)) = .next (s.answered st []) :=
  State.run_cutter ha hrole (c := s.dev.blk) h

namespace Blocks

variable {sh : Shop} {b : Blocks}

/-- A new piece starts neither a search nor a look (R120, R125, R131). -/
theorem searchOrLook_stands (h : live sh b = false ∨ (∃ q, b.planner.plan = some q ∧ q.open_ = false) ∨
    (b.planner.plan = none ∧ sh.rep.holds b.pres.station = true)) : b.searchOrLook sh = b := by
  unfold Blocks.searchOrLook
  rcases h with h | ⟨q, hp, ho⟩ | ⟨hp, hh⟩
  · rw [search_stands (.inr (.inl h)), look_stands (.inr h)]
  · rw [search_stands (.inl (by simp [hp])), look_stands (.inl (fun q' hq' => ?_))]
    rwa [← Option.some.inj (hp.symm.trans hq')]
  · rw [search_stands (.inr (.inr hh)), look_stands (.inl (fun q hq => by simp [hp] at hq))]

/-- After a search there is no open plan, so no look follows it. -/
theorem searchOrLook_of_search {l : List Notice} {c : Blocks} (hc : b.search sh = c.postAll l)
    (hp : ∀ q, c.planner.plan = some q → q.open_ = false) : b.searchOrLook sh = c.postAll l := by
  unfold Blocks.searchOrLook
  rw [hc, look_stands (.inl ?_)]
  rw [postAll_eq]
  exact hp

theorem Looks.searchOrLook_eq {q : Plan} (h : b.Looks sh q) (hp : b.plans = true) :
    b.searchOrLook sh = b.lookUpTo sh 7 := by
  unfold Blocks.searchOrLook
  rw [search_stands (.inl (by simp [h.plan]))]
  exact if_pos hp

end Blocks

theorem Plan.open_claimed (p : Piece) (x : Slab) : (Plan.claimed p x).open_ = false := rfl

/-- Settles O45: the checks in their order (`Station.TakesPiece`), then what the new piece starts: nothing
(`Blocks.searchOrLook_stands`), a search (`Blocks.Searches.search_none`, `Blocks.Searches.search_wins`) or a look
(`Blocks.Looks`). -/
theorem pieceRequestsAndTheSearch : Obligations.PieceRequestsAndTheSearch := by
  intro s ha hrole b r placements
  refine ⟨fun piece job m t l w rotate => ?_, fun piece => ?_⟩
  · intro o inRange taken jobOpen full new eligible queue joins
    have htaken : b.planner.holdsPiece piece.toNat = true ↔ taken := Planner.holdsPiece_iff _ _
    have hopen : jobOpenIn job.toNat r = true ↔ jobOpen := jobOpenIn_iff _ _
    have takes : inRange = true → ¬ taken →
        Station.TakesPiece s.dev piece.toNat job.toNat m.toNat t.toNat l.toNat w.toNat rotate.toNat :=
      fun h1 h2 => ⟨h1, Bool.eq_false_iff.mpr (fun k => h2 (htaken.mp k))⟩
    have hrotate : (rotate.toNat == 1) = decide (rotate = 1) := by
      rw [Bool.eq_iff_iff, beq_iff_eq, decide_eq_true_eq, ← BitVec.toNat_inj]
      rfl
    refine ⟨fun h => ?_, fun h1 h2 h3 => ?_, fun h1 h2 h3 h4 => ?_, fun h1 h2 h3 h4 => ?_⟩
    · exact State.run_cutter_refuses ha hrole (Station.submitPiece_badField (h.imp_right htaken.mpr))
    · exact State.run_cutter_refuses ha hrole ((takes h1 h2).notFound (Bool.eq_false_iff.mpr (fun k => h3 (hopen.mp k))))
    · exact State.run_cutter_refuses ha hrole ((takes h1 h2).full (hopen.mpr h3) h4)
    have accepted : o = .next ({ s with dev.blk := (joins new).searchOrLook s.dev.shop }.answered .ok []) := by
      refine State.run_cutter ha hrole (((takes h1 h2).ok (hopen.mpr h3) h4).trans ?_)
      rw [hrotate]
      rfl
    have hplans : (joins new).plans = true := (Blocks.saws_iff b).mpr ⟨hrole, ha.2⟩
    have hlive : live s.dev.shop (joins new) = true ↔ s.isLive := live_iff s
    have hnotLive : ¬ s.isLive → live s.dev.shop (joins new) = false := live_eq_false
    refine ⟨fun h => ?_, fun hl hp hnone => ?_, fun q hl hp hst hrel => ?_⟩
    · rw [accepted, Blocks.searchOrLook_stands]
      rcases h with h | ⟨q, hq, h⟩ | ⟨hp, x, hx, hh⟩
      · exact .inl (hnotLive h)
      · exact .inr (.inl ⟨q, hq, Plan.open_eq_false h⟩)
      · exact .inr (.inr ⟨hp, List.any_eq_true.mpr ⟨x, hx, beq_iff_eq.mpr hh⟩⟩)
    · intro fits wins area better passed told
      have hsearch : (joins new).Searches s.dev.shop :=
        ⟨hplans, hp, hlive.mpr hl, Replica.holds_eq_false_iff.mpr hnone⟩
      refine ⟨fun hno => ?_, fun before y after x hq hbefore hy hx hfit hbest => ?_⟩
      · rw [accepted, Blocks.searchOrLook_of_search (hsearch.search_none hno) (fun q hq => ?_)]
        · rfl
        · rw [show b.planner.plan = some q from hq] at hp
          cases hp
      · have hrec : bestRecord y r.allSlabs = some x := bestRecord_eq_some hx hfit hbest
        rw [accepted, Blocks.searchOrLook_of_search (hsearch.search_wins hq hbefore hy hrec) (fun q hq => ?_)]
        · rfl
        · rw [← Option.some.inj hq]
          exact Plan.open_claimed _ _
    · intro candidate placeable room sealed waits
      have looks : (joins new).Looks s.dev.shop q := ⟨hp, (Plan.open_iff q).mpr ⟨hst, hrel⟩, hlive.mpr hl⟩
      have looked : ∀ c, (joins new).lookUpTo s.dev.shop 7 = c → o = .next ({ s with dev.blk := c }.answered .ok []) :=
        fun c hc => by rw [accepted, looks.searchOrLook_eq hplans, hc]
      have hseal := Blocks.sealNow_sealed looks.plan looks.isOpen
      refine ⟨fun hfull => ⟨_, looked _ (looks.full 6 hfull), hseal⟩,
        fun hroom hno => ⟨_, looked _ (looks.waits 6 hroom hno), rfl, rfl, hp, rfl⟩,
        fun hroom hsome hno => ⟨_, looked _ (looks.seals 6 hroom hsome hno), hseal⟩,
        fun before y after i x hroom hq hbefore hy hc hb => ?_⟩
      intro q' placed
      have hlooked := looked _ (looks.places 6 hroom hq hbefore hy hc hb)
      have hposts : ∀ t : State, t.dev.blk.host.notices = (Blocks.lookUpTo s.dev.shop 6
          (((joins new).onCost (CostUnit.reserve y.job)).placePiece y i x)).host.notices → placed t := fun t ht hnot => by
        rw [ht, ← Piece.rotatedIn_eq]
        exact Blocks.placePiece_posts (b := (joins new).onCost (CostUnit.reserve y.job)) (sh := s.dev.shop) ha.2 hp y i x 6 hnot
      obtain ⟨hids, hplan⟩ := Blocks.placePiece_fills (sh := s.dev.shop)
        (b := (joins new).onCost (CostUnit.reserve y.job)) hp y i x 6
      refine ⟨⟨_, hlooked, hposts _ rfl, hids, hplan⟩, fun hempty => ?_⟩
      have hafter : queue.filter (fun a => a.id != y.id) = [] := by
        have hqueue : queue = [new] := congrArg (· ++ [new]) hempty
        have hone : [new] = before ++ y :: after := hqueue.symm.trans hq
        obtain rfl : before = [] := by
          cases before with
          | nil => rfl
          | cons z zs => simp at hone
        obtain ⟨rfl, _⟩ := List.cons.inj hone
        rw [hqueue]
        simp
      have hP := Blocks.placePiece_placed (b := (joins new).onCost (CostUnit.reserve y.job)) hp y i x
      have looks' : (((joins new).onCost (CostUnit.reserve y.job)).placePiece y i x).Looks s.dev.shop q' :=
        ⟨hP.plan, looks.isOpen, by rw [live, Blocks.isMember, hP.pres]; exact hlive.mpr hl⟩
      refine ⟨fun hfull => ⟨_, hlooked, hposts _ rfl, looks'.sealed_of_full 5 hfull⟩, fun h6 hoff => ?_⟩
      obtain ⟨hsaw, hplan', htimer⟩ := looks'.waits_alone 5 ⟨h6, hoff⟩ (hP.pieces.trans hafter) hP.sealT
      exact ⟨_, hlooked, hposts _ rfl, hsaw.trans hP.saw, hplan', htimer.trans (congrArg (fun n => some (n + 2000)) hP.now)⟩
  · intro o queued placed claimedFor
    have hholds : b.planner.holdsPiece piece.toNat = true ↔ queued ∨ placed := Planner.holdsPiece_iff _ _
    have hclaims : b.planner.claimsFor piece.toNat = true ↔ claimedFor := Planner.claimsFor_iff _ _
    have hplaced : b.planner.placements.any (fun a => a.piece.id == piece.toNat) = true ↔ placed := by
      simp only [List.any_eq_true, beq_iff_eq]
      rfl
    refine ⟨fun h1 h2 => State.run_cutter_refuses ha hrole ?_, fun h => State.run_cutter_refuses ha hrole ?_,
      fun h1 h2 h3 => ?_⟩
    · rw [Station.cancelPiece_eq]
      exact if_pos (by simpa using Bool.eq_false_iff.mpr (fun k => (hholds.mp k).elim h1 h2))
    · rw [Station.cancelPiece_eq, if_neg (by simpa using hholds.mpr (h.elim .inr (fun k => .inl k.1)))]
      refine if_pos ?_
      rw [Bool.or_eq_true, hplaced, hclaims]
      exact h.imp_right (fun k => k.2)
    · refine State.run_cutter ha hrole
        (c := b.onPlanner (fun p => { p with pieces := p.pieces.filter (fun a => a.id != piece.toNat) })) ?_
      rw [Station.cancelPiece_eq, if_neg (by simpa using hholds.mpr (.inl h1)), if_neg ?_]
      rw [Bool.or_eq_true, hplaced, hclaims]
      exact not_or.mpr ⟨h2, h3⟩

end Sys2Proof.Machine

/-! The planner's own moves (R136, R137): what they leave, and the pieces that come back to the queue. -/

namespace Sys2Proof.Machine

/-! ## What the planner's moves leave -/

/-- From the blocks `b` to the blocks `c`, nothing has moved but the line, the planner, the cost unit and the host port. -/
structure Blocks.PlannerMoved (b c : Blocks) : Prop where
  rest : c = { b with line := c.line, planner := c.planner, cost := c.cost, host := c.host }

namespace Blocks.PlannerMoved

variable {a b c : Blocks}

theorem refl (b : Blocks) : b.PlannerMoved b := ⟨rfl⟩

theorem trans (h : a.PlannerMoved b) (k : b.PlannerMoved c) : a.PlannerMoved c := ⟨by rw [k.rest, h.rest]⟩

theorem pres (h : a.PlannerMoved b) : b.pres = a.pres := by rw [h.rest]

theorem meas (h : a.PlannerMoved b) : b.meas = a.meas := by rw [h.rest]

theorem plant (h : a.PlannerMoved b) : b.plant = a.plant := by rw [h.rest]

theorem saw (h : a.PlannerMoved b) : b.saw = a.saw := by rw [h.rest]

theorem postAll (h : a.PlannerMoved b) (l : List Notice) : a.PlannerMoved (b.postAll l) :=
  h.trans ⟨by rw [Blocks.postAll_eq]⟩

theorem onCost (h : a.PlannerMoved b) (f : CostUnit → CostUnit) : a.PlannerMoved (b.onCost f) := h.trans ⟨rfl⟩

theorem onPlanner (h : a.PlannerMoved b) (f : Planner → Planner) : a.PlannerMoved (b.onPlanner f) := h.trans ⟨rfl⟩

theorem onPlan (h : a.PlannerMoved b) (f : Plan → Plan) : a.PlannerMoved (b.onPlan f) := h.trans ⟨rfl⟩

theorem setPlan (h : a.PlannerMoved b) (p : Option Plan) : a.PlannerMoved (b.setPlan p) := h.trans ⟨rfl⟩

theorem setSealT (h : a.PlannerMoved b) (t : Option Nat) : a.PlannerMoved (b.setSealT t) := h.trans ⟨rfl⟩

theorem offer (h : a.PlannerMoved b) (p : Producer) (f : Frame) : a.PlannerMoved (b.offer p f) := by
  refine h.trans ⟨?_⟩
  unfold Blocks.offer
  split <;> rfl

theorem reportChecks (h : a.PlannerMoved b) (sh : Shop) : a.PlannerMoved (b.reportChecks sh) := by
  have fold : ∀ (l : List (Nat × CostLine)) (c : Blocks), a.PlannerMoved c →
      a.PlannerMoved (l.foldl (fun x p => if x.cost.mayReport p.1 p.2 then x.reportLine p.1 p.2 else x) c) := by
    intro l
    induction l with
    | nil => exact fun _ k => k
    | cons p rest ih =>
      intro c k
      refine ih _ ?_
      dsimp only
      split
      · exact (k.onCost _).offer _ _
      · exact k
  unfold Blocks.reportChecks
  split
  · exact fold _ _ h
  · exact h

theorem search (h : a.PlannerMoved b) (sh : Shop) : a.PlannerMoved (b.search sh) := by
  have h1 := (h.onPlanner (fun p => { p with pieces := (searchPieces sh.rep b.cost b.planner.pieces).pieces })).postAll
    (searchPieces sh.rep b.cost b.planner.pieces).posts
  unfold Blocks.search
  split
  · dsimp only
    split
    · exact h1
    · exact ((h1.onCost _).setPlan _).offer _ _
  · exact h

theorem planEnds (h : a.PlannerMoved b) (sh : Shop) : a.PlannerMoved (b.planEnds sh) :=
  (((h.setPlan none).setSealT none).onCost _).reportChecks sh |>.search sh

theorem placementsLeave (h : a.PlannerMoved b) (sh : Shop) (leaves : Placement → Bool) (p : Plan) :
    a.PlannerMoved (b.placementsLeave sh leaves p) := by
  unfold Blocks.placementsLeave Blocks.piecesReturn
  exact ((((h.onPlan _).onPlanner _).postAll _).onCost _).reportChecks sh

theorem offerRelease (h : a.PlannerMoved b) : a.PlannerMoved b.offerRelease := by
  unfold Blocks.offerRelease
  split
  · exact h
  · exact (h.onPlan _).offer _ _

end Blocks.PlannerMoved

/-! ## The report check (R178) -/

/-- With no line DUE nothing is reported. -/
theorem Blocks.reportChecks_of_none_due {b : Blocks} (h : ∀ x ∈ b.cost.lines, x.2.state ≠ .due) (sh : Shop) :
    b.reportChecks sh = b := by
  have fold : ∀ l : List (Nat × CostLine), (∀ x ∈ l, x.2.state ≠ .due) →
      l.foldl (fun x p => if x.cost.mayReport p.1 p.2 then x.reportLine p.1 p.2 else x) b = b := by
    intro l
    induction l with
    | nil => exact fun _ => rfl
    | cons p rest ih =>
      intro hl
      have hp : b.cost.mayReport p.1 p.2 = false := by simp [CostUnit.mayReport, hl p (List.mem_cons_self)]
      rw [List.foldl_cons, hp]
      exact ih (fun x hx => hl x (List.mem_cons_of_mem p hx))
  unfold Blocks.reportChecks
  split
  · exact fold _ h
  · rfl

/-- A placement that leaves lowers a count and moves no line's state (R173). -/
theorem CostUnit.lowered_none_due {c : CostUnit} (h : ∀ x ∈ c.lines, x.2.state ≠ .due) (job : Nat) :
    ∀ x ∈ (c.lowered job).lines, x.2.state ≠ .due := by
  intro x hx
  obtain ⟨y, hy, rfl⟩ := List.mem_map.mp hx
  dsimp only
  split
  · exact h y hy
  · exact h y hy

theorem CostUnit.foldl_lowered_none_due (l : List Placement) : ∀ {c : CostUnit}, (∀ x ∈ c.lines, x.2.state ≠ .due) →
    ∀ x ∈ (l.foldl (fun y a => y.lowered a.piece.job) c).lines, x.2.state ≠ .due := by
  induction l with
  | nil => exact fun h => h
  | cons a rest ih => exact fun h => ih (CostUnit.lowered_none_due h a.piece.job)

/-! ## The pieces that come back (R136) -/

theorem insertPiece_perm (p : Piece) (l : List Piece) : (insertPiece p l).Perm (p :: l) := by
  induction l with
  | nil => exact List.Perm.refl _
  | cons a rest ih =>
    unfold insertPiece
    split
    · exact (List.Perm.cons a ih).trans (List.Perm.swap p a rest)
    · exact List.Perm.refl _

/-- The pieces stand in their order of submission. -/
theorem insertPiece_sorted {p : Piece} {l : List Piece} (h : l.Pairwise (fun x y => x.sub ≤ y.sub)) :
    (insertPiece p l).Pairwise (fun x y => x.sub ≤ y.sub) := by
  induction l with
  | nil => exact List.pairwise_singleton _ _
  | cons a rest ih =>
    obtain ⟨ha, hrest⟩ := List.pairwise_cons.mp h
    unfold insertPiece
    split
    next hlt =>
      refine List.pairwise_cons.mpr ⟨fun x hx => ?_, ih hrest⟩
      rcases List.mem_cons.mp ((insertPiece_perm p rest).mem_iff.mp hx) with rfl | hx
      · omega
      · exact ha x hx
    next hge =>
      refine List.pairwise_cons.mpr ⟨fun x hx => ?_, h⟩
      rcases List.mem_cons.mp hx with rfl | hx
      · omega
      · have := ha x hx
        omega

/-- The returning pieces, QUEUED, in their order of submission. -/
def returning (back : List Piece) : List Piece :=
  back.foldl (fun acc p => insertPiece { p with state := .queued } acc) []

theorem foldl_insertPiece (l : List Piece) : ∀ acc : List Piece,
    (l.foldl (fun acc p => insertPiece { p with state := .queued } acc) acc).Perm
      (l.map (fun p => { p with state := .queued }) ++ acc) ∧
    (acc.Pairwise (fun x y => x.sub ≤ y.sub) →
      (l.foldl (fun acc p => insertPiece { p with state := .queued } acc) acc).Pairwise (fun x y => x.sub ≤ y.sub)) := by
  induction l with
  | nil => exact fun acc => ⟨List.Perm.refl _, id⟩
  | cons p rest ih =>
    intro acc
    obtain ⟨hperm, hsorted⟩ := ih (insertPiece { p with state := .queued } acc)
    refine ⟨hperm.trans ?_, fun h => hsorted (insertPiece_sorted h)⟩
    refine (List.Perm.append_left _ (insertPiece_perm _ acc)).trans ?_
    exact List.perm_middle

theorem returning_perm (back : List Piece) : (returning back).Perm (back.map (fun p => { p with state := .queued })) := by
  have := (foldl_insertPiece back []).1
  rwa [List.append_nil] at this

theorem returning_sorted (back : List Piece) : (returning back).Pairwise (fun x y => x.sub ≤ y.sub) :=
  (foldl_insertPiece back []).2 List.Pairwise.nil

end Sys2Proof.Machine

/-! ABANDON_PLAN (R136, R137): the sequencer's copy is withdrawn, placements leave, and the plan is released, consumed or at
an end. -/

namespace Sys2Proof.Machine

/-! ## The plan withdrawn from the sequencer (R162) -/

theorem Blocks.sawWithdrawn_eq (b : Blocks) : b.sawWithdrawn = { b with saw := b.sawWithdrawn.saw } := by
  unfold Blocks.sawWithdrawn Blocks.startDrop Blocks.sawIdle
  split_ifs <;> rfl

theorem Blocks.sawWithdrawn_counts (b : Blocks) : b.sawWithdrawn.saw.enc = b.saw.enc ∧
    b.sawWithdrawn.saw.cmd = b.saw.cmd ∧ b.sawWithdrawn.saw.waterWanted = b.saw.waterWanted := by
  unfold Blocks.sawWithdrawn Blocks.startDrop Blocks.sawIdle
  split_ifs <;> exact ⟨rfl, rfl, rfl⟩

theorem Blocks.sawWithdrawn_idle {b : Blocks} (h : b.saw.st = .loadWait ∨ b.saw.st = .faulted) :
    b.sawWithdrawn.saw.st = .idle ∧ b.sawWithdrawn.saw.plan = none ∧
      b.sawWithdrawn.saw.dropT =
        if b.saw.dropT.isNone && b.saw.waterWanted then some (b.now + 5000) else b.saw.dropT := by
  have stopped : b.sawWithdrawn = if b.saw.dropT.isSome then b.sawIdle else b.sawIdle.startDrop := if_pos h
  have hw : b.sawIdle.saw.waterWanted = b.saw.waterWanted := rfl
  rw [stopped, ← Option.not_isSome]
  unfold Blocks.startDrop
  rw [hw]
  cases b.saw.dropT.isSome with
  | true => exact ⟨rfl, rfl, rfl⟩
  | false => cases b.saw.waterWanted <;> exact ⟨rfl, rfl, rfl⟩

/-! ## What ABANDON_PLAN keeps -/

/-- ABANDON_PLAN withdraws the sequencer's copy; of the rest it moves the line, the planner, the cost unit and the host
port alone. -/
def State.KeepsAtAbandon (s t : State) : Prop :=
  let b := s.dev.blk
  t.dev.shop = s.dev.shop ∧ t.pending = s.pending ∧ t.dev.blk.pres = b.pres ∧
    t.dev.blk.meas = b.meas ∧ t.dev.blk.plant = b.plant ∧ t.dev.blk.saw.enc = b.saw.enc ∧
    t.dev.blk.saw.cmd = b.saw.cmd ∧ t.dev.blk.saw.waterWanted = b.saw.waterWanted ∧
    (b.saw.st = .loadWait ∨ b.saw.st = .faulted → t.dev.blk.saw.st = .idle ∧ t.dev.blk.saw.plan = none ∧
      t.dev.blk.saw.dropT = if b.saw.dropT.isNone && b.saw.waterWanted then some (b.now + 5000) else b.saw.dropT)

theorem State.keepsAtAbandon {s : State} {c : Blocks} (h : s.dev.blk.sawWithdrawn.PlannerMoved c) (st : Status) :
    s.KeepsAtAbandon ({ s with dev.blk := c }.answered st []) := by
  have hw := s.dev.blk.sawWithdrawn_eq
  have hpres : c.pres = s.dev.blk.pres := by rw [h.pres, hw]
  have hmeas : c.meas = s.dev.blk.meas := by rw [h.meas, hw]
  have hplant : c.plant = s.dev.blk.plant := by rw [h.plant, hw]
  have hsaw : c.saw = s.dev.blk.sawWithdrawn.saw := h.saw
  have hcounts := s.dev.blk.sawWithdrawn_counts
  have hidle := s.dev.blk.sawWithdrawn_idle
  rw [← hsaw] at hcounts hidle
  exact ⟨rfl, rfl, hpres, hmeas, hplant, hcounts.1, hcounts.2.1, hcounts.2.2, hidle⟩

/-! ## The placements that leave (R136) -/

/-- The pieces that come back from placements: those of jobs that the replica holds OPEN. -/
def backPieces (r : Replica) (out : List Placement) : List Piece :=
  returning ((out.map (fun x => x.piece)).filter (fun p => jobOpenIn p.job r))

theorem backPieces_perm (r : Replica) (out : List Placement) :
    (backPieces r out).Perm ((out.filter (fun x => jobOpenIn x.piece.job r)).map
      (fun x => { x.piece with state := .queued })) := by
  have h := returning_perm ((out.map (fun x => x.piece)).filter (fun p => jobOpenIn p.job r))
  unfold backPieces
  rw [List.filter_map, List.map_map] at h
  rw [List.filter_map]
  exact h

/-- The pieces of these placements stand before those of the queue. -/
def Blocks.Returns (r : Replica) (seen : Piece → Piece) (out : List Placement) (b c : Blocks) : Prop :=
  ∃ front, c.planner.pieces.map seen = (front ++ b.planner.pieces).map seen ∧
    front.Perm ((out.filter (fun x => jobOpenIn x.piece.job r)).map (fun x => { x.piece with state := .queued })) ∧
    front.Pairwise (fun x y => x.sub ≤ y.sub)

theorem Blocks.returns_of_pieces {r : Replica} {seen : Piece → Piece} {out : List Placement} {b c : Blocks}
    (h : c.planner.pieces.map seen = (backPieces r out ++ b.planner.pieces).map seen) : b.Returns r seen out c :=
  ⟨_, h, backPieces_perm r out, returning_sorted _⟩

namespace Blocks

variable {sh : Shop} {b : Blocks} {leaves : Placement → Bool} {p : Plan}

theorem piecesReturn_eq (r : Replica) (out : List Placement) (b : Blocks) :
    b.piecesReturn r (out.map (fun x => x.piece)) =
      { b with
        planner.pieces := backPieces r out ++ b.planner.pieces
        host := (b.piecesReturn r (out.map (fun x => x.piece))).host } :=
  Blocks.postAll_eq _ _

theorem placementsLeave_pieces (sh : Shop) (leaves : Placement → Bool) (p : Plan) (b : Blocks) :
    (b.placementsLeave sh leaves p).planner.pieces = backPieces sh.rep (p.placements.filter leaves) ++ b.planner.pieces := by
  unfold Blocks.placementsLeave
  dsimp only
  rw [(((Outside.refl _).onCost _).reportChecks sh).planner, piecesReturn_eq]
  rfl

theorem placementsLeave_line (h : ∀ x ∈ b.cost.lines, x.2.state ≠ .due) (sh : Shop) (leaves : Placement → Bool)
    (p : Plan) : (b.placementsLeave sh leaves p).line = b.line := by
  unfold Blocks.placementsLeave
  dsimp only
  rw [reportChecks_of_none_due (CostUnit.foldl_lowered_none_due _ (by rw [piecesReturn_eq]; exact h)), piecesReturn_eq]
  rfl

/-! ## The plan is released or consumed -/

theorem offerRelease_eq (hm : b.pres.mem = .member) (hp : b.planner.plan = some p) :
    b.offerRelease =
      { b with
        planner.plan := some { p with releasing := true, keptRelease := false }
        line := b.line.offer .planner (mkFrame .release (bytes2 p.slab.code)) } := by
  unfold Blocks.offerRelease
  rw [hp]
  dsimp only
  rw [Blocks.offer_of_offers (by rw [Blocks.onPlan_pres, hm]; rfl), Blocks.onPlan, hp, hm]
  rfl

/-- An abandoned plan offers no remnant (R137). -/
theorem offerConsume_abandoned (hm : b.pres.mem = .member) (hp : b.planner.plan = some p) (ha : p.abandoned = true)
    (sh : Shop) : b.offerConsume sh =
      { b with
        planner.plan := some { p with keptConsume := false }
        line := b.line.offer .planner (mkFrame .consume (consumePayload p.slab p.abandoned p.pieceTotal [])) } := by
  unfold Blocks.offerConsume
  rw [hp]
  dsimp only
  rw [if_pos ha, List.foldl_nil]
  rw [Blocks.offer_of_offers (by rw [Blocks.onPlan_pres, hm]; rfl), Blocks.onPlan, hp, hm]
  rfl

end Blocks

/-! ## The plan ends, and a search follows (R125) -/

/-- A search moves pieces between their states alone (R126). -/
theorem searchPieces_queued (r : Replica) (c : CostUnit) (l : List Piece) :
    (searchPieces r c l).pieces.map (fun y => { y with state := .queued }) =
      l.map (fun y => { y with state := .queued }) := by
  induction l with
  | nil => rfl
  | cons p rest ih =>
    unfold searchPieces
    split
    · split
      · split
        · rfl
        · exact congrArg (_ :: ·) ih
      · exact congrArg (_ :: ·) ih
    · exact congrArg (_ :: ·) ih

theorem Blocks.search_queued (sh : Shop) (b : Blocks) :
    (b.search sh).planner.pieces.map (fun y => { y with state := .queued }) =
      b.planner.pieces.map (fun y => { y with state := .queued }) := by
  unfold Blocks.search
  split
  · dsimp only
    have hf := searchPieces_queued sh.rep b.cost b.planner.pieces
    split
    · rw [Blocks.postAll_eq]
      exact hf
    · rw [((Blocks.Outside.refl _).offer _ _).planner, Blocks.setPlan, Blocks.onPlanner, Blocks.onCost, Blocks.postAll_eq]
      exact hf
  · rfl

/-- The plan that a search leaves, where there was none, is the one it claims a slab for (R126). -/
theorem Blocks.search_claims {sh : Shop} {b : Blocks} (hp : b.planner.plan = none) {q : Plan}
    (hq : (b.search sh).planner.plan = some q) : q.state = .claiming ∧ q.placements = [] := by
  unfold Blocks.search at hq
  split at hq
  · dsimp only at hq
    split at hq
    · rw [Blocks.postAll_eq] at hq
      exact absurd (hp.symm.trans hq) (Option.some_ne_none q).symm
    · rw [((Blocks.Outside.refl _).offer _ _).planner] at hq
      cases hq
      exact ⟨rfl, rfl⟩
  · rw [hp] at hq
    cases hq

/-- A plan ends: none stands, and the pieces stand, before the search that follows. -/
theorem Blocks.planEnds_before_search (sh : Shop) (b : Blocks) :
    ((b.setPlan none).setSealT none |>.costPlanEnded sh).planner = { b.planner with plan := none, sealT := none } :=
  ((Blocks.Outside.refl _).costPlanEnded sh).planner

theorem Blocks.live_congr {sh : Shop} {b c : Blocks} (h : c.pres = b.pres) : live sh c = live sh b := by
  unfold live Blocks.isMember
  rw [h]

/-- Away from LIVE the plan's end is all (R125). -/
theorem Blocks.planEnds_of_not_live {sh : Shop} {b : Blocks} (h : live sh b = false) :
    (b.planEnds sh).planner = { b.planner with plan := none, sealT := none } := by
  unfold Blocks.planEnds
  rw [Blocks.search_stands (.inr (.inl ?_))]
  · exact b.planEnds_before_search sh
  · exact (Blocks.live_congr ((Blocks.Outside.refl _).costPlanEnded sh).pres).trans h

theorem Blocks.planEnds_queued (sh : Shop) (b : Blocks) :
    (b.planEnds sh).planner.pieces.map (fun y => { y with state := .queued }) =
      b.planner.pieces.map (fun y => { y with state := .queued }) := by
  unfold Blocks.planEnds
  rw [Blocks.search_queued, b.planEnds_before_search sh]

theorem Blocks.planEnds_claims {sh : Shop} {b : Blocks} {q : Plan} (hq : (b.planEnds sh).planner.plan = some q) :
    q.state = .claiming ∧ q.placements = [] :=
  Blocks.search_claims (congrArg Planner.plan (b.planEnds_before_search sh)) hq

/-! ## The checks of ABANDON_PLAN (R186) -/

namespace Station

variable {d : Station} {p : Plan}

theorem abandonPlan_none (hp : d.blk.planner.plan = none) : d.abandonPlan = d.refuses .wrongState := by
  rw [Station.abandonPlan, hp]

theorem abandonPlan_wrongState (hp : d.blk.planner.plan = some p)
    (h : (p.state ≠ .loadWait ∧ p.state ≠ .faulted) ∨ p.releasing = true) : d.abandonPlan = d.refuses .wrongState := by
  rw [Station.abandonPlan, hp]
  exact if_pos h

theorem abandonPlan_of_ended (hp : d.blk.planner.plan = some p) (hst : p.state = .loadWait ∨ p.state = .faulted)
    (hr : p.releasing = false) :
    d.abandonPlan =
      if p.state = .faulted ∧ p.fault = some .slabLost then
        Station.says .ok [] { d with blk := d.blk.abandonLost d.shop p }
      else if !live d.shop d.blk then d.refuses .notLive
      else if d.blk.queueFull then d.refuses .full
      else Station.says .queued [] { d with blk := d.blk.abandonQueued d.shop p } := by
  rw [Station.abandonPlan, hp]
  refine if_neg ?_
  rintro (⟨h1, h2⟩ | h)
  · exact hst.elim h1 h2
  · rw [hr] at h
    cases h

end Station

/-! ## O48 -/

/-- The blocks after the sequencer's copy and the placements have left (R136, R137). -/
def Blocks.abandonLeft (sh : Shop) (leaves : Placement → Bool) (p : Plan) (b : Blocks) : Blocks :=
  b.sawWithdrawn.placementsLeave sh leaves p

namespace Blocks

variable {sh : Shop} {b : Blocks} {p : Plan}

theorem abandonLeft_moved (sh : Shop) (leaves : Placement → Bool) (p : Plan) (b : Blocks) :
    b.sawWithdrawn.PlannerMoved (b.abandonLeft sh leaves p) :=
  (PlannerMoved.refl _).placementsLeave sh leaves p

theorem abandonLeft_pres (sh : Shop) (leaves : Placement → Bool) (p : Plan) (b : Blocks) :
    (b.abandonLeft sh leaves p).pres = b.pres := by
  rw [(abandonLeft_moved sh leaves p b).pres, sawWithdrawn_eq]

theorem abandonLeft_pieces (sh : Shop) (leaves : Placement → Bool) (p : Plan) (b : Blocks) :
    (b.abandonLeft sh leaves p).planner.pieces =
      backPieces sh.rep (p.placements.filter leaves) ++ b.planner.pieces := by
  rw [abandonLeft, placementsLeave_pieces, sawWithdrawn_planner]

theorem abandonLeft_plan (hp : b.planner.plan = some p) (sh : Shop) (leaves : Placement → Bool) :
    (b.abandonLeft sh leaves p).planner.plan =
      some { p with placements := p.placements.filter (fun x => !leaves x) } := by
  rw [abandonLeft, placementsLeave_plan, sawWithdrawn_planner, hp]
  rfl

/-- With no line DUE nothing joins the queue before the plan's own frame. -/
theorem abandonLeft_line (h : ∀ x ∈ b.cost.lines, x.2.state ≠ .due) (sh : Shop) (leaves : Placement → Bool) (p : Plan) :
    (b.abandonLeft sh leaves p).line = b.line := by
  rw [abandonLeft, placementsLeave_line (by rw [sawWithdrawn_eq]; exact h), sawWithdrawn_eq]

/-- A plan not started is released (R136). -/
theorem abandonQueued_unstarted (hm : b.pres.mem = .member) (hp : b.planner.plan = some p) (hs : p.started = false)
    (sh : Shop) :
    let c := b.abandonLeft sh (fun _ => true) p
    b.abandonQueued sh p =
      { c with
        planner.plan := some { p with placements := [], releasing := true, keptRelease := false }
        line := c.line.offer .planner (mkFrame .release (bytes2 p.slab.code)) } := by
  intro c
  have hplan := abandonLeft_plan hp sh (fun _ => true)
  have hmem : c.pres.mem = .member := (congrArg Presence.mem (abandonLeft_pres sh _ p b)).trans hm
  rw [Blocks.abandonQueued, if_neg (by rw [hs]; exact Bool.false_ne_true)]
  refine (offerRelease_eq hmem hplan).trans ?_
  simp [c]

/-- A started plan is consumed: its cut pieces stand (R137). -/
theorem abandonQueued_started (hm : b.pres.mem = .member) (hp : b.planner.plan = some p) (hs : p.started = true)
    (sh : Shop) :
    let c := b.abandonLeft sh (fun x => !x.done) p
    let cutPieces := p.placements.filter (fun x => x.done)
    b.abandonQueued sh p =
      { c with
        planner.plan := some
          { p with
            placements := cutPieces, state := .consuming, abandoned := true, fault := none, keptConsume := false }
        line := c.line.offer .planner (mkFrame .consume (consumePayload p.slab true
          ((cutPieces.map (fun x => x.length * x.width)).sum) [])) } := by
  intro c cutPieces
  have hplan := abandonLeft_plan hp sh (fun x => !x.done)
  have hmem : c.pres.mem = .member := (congrArg Presence.mem (abandonLeft_pres sh _ p b)).trans hm
  let q : Plan :=
    { p with placements := cutPieces, state := .consuming, abandoned := true, fault := none }
  have hq : (c.onPlan (fun q => { q with state := .consuming, abandoned := true, fault := none })).planner.plan =
      some q := by
    rw [Blocks.onPlan_planner, hplan]
    simp [q, cutPieces]
  have htotal : q.pieceTotal = (cutPieces.map (fun x => x.length * x.width)).sum := by
    simp [Plan.pieceTotal, q, cutPieces]
  rw [Blocks.abandonQueued, if_pos hs]
  refine (offerConsume_abandoned (by rw [Blocks.onPlan_pres]; exact hmem) hq rfl sh).trans ?_
  rw [htotal]
  rfl

theorem abandonLost_moved (sh : Shop) (p : Plan) (b : Blocks) : b.sawWithdrawn.PlannerMoved (b.abandonLost sh p) :=
  ((abandonLeft_moved sh _ p b).onCost _).planEnds sh

/-- Away from LIVE no search follows the plan's end (R125). -/
theorem abandonLost_not_live (h : live sh b = false) (p : Plan) :
    (b.abandonLost sh p).planner =
      { (b.abandonLeft sh (fun x => !x.done) p).planner with plan := none, sealT := none } :=
  planEnds_of_not_live ((live_congr (abandonLeft_pres sh (fun x => !x.done) p b)).trans h)

/-- The search that may follow marks pieces alone (R126). -/
theorem abandonLost_queued (sh : Shop) (p : Plan) (b : Blocks) :
    (b.abandonLost sh p).planner.pieces.map (fun y => { y with state := .queued }) =
      (backPieces sh.rep (p.placements.filter (fun x => !x.done)) ++ b.planner.pieces).map
        (fun y => { y with state := .queued }) :=
  (planEnds_queued sh _).trans (congrArg _ (abandonLeft_pieces sh (fun x => !x.done) p b))

theorem abandonLost_claims {q : Plan} (hq : (b.abandonLost sh p).planner.plan = some q) :
    q.state = .claiming ∧ q.placements = [] :=
  planEnds_claims hq

end Blocks

/-- What ABANDON_PLAN gives, where it answers and changes the blocks alone. -/
theorem State.run_abandonPlan {s : State} (ha : s.asked) (hrole : s.dev.blk.pres.role = .cutter) {st : Status}
    {c : Blocks} (h : s.dev.abandonPlan = Station.says st [] { s.dev with blk := c }) {Q : State → Prop}
    (hQ : Q ({ s with dev.blk := c }.answered st [])) : Gives (exec .abandonPlan s) Q :=
  ⟨_, State.run_cutter ha hrole h, hQ⟩

/-- Settles O48: the checks in their order (`Station.abandonPlan_of_ended`), then the plan released
(`Blocks.abandonQueued_unstarted`), consumed (`Blocks.abandonQueued_started`) or at an end (`Blocks.planEnds_of_not_live`,
`Blocks.planEnds_claims`). -/
theorem abandonEndsThePlan : Obligations.AbandonEndsThePlan := by
  intro s ha hrole b o replied kept returned
  refine ⟨fun hp => State.run_cutter_refuses ha hrole (Station.abandonPlan_none hp), fun p hp => ⟨fun h =>
    State.run_cutter_refuses ha hrole (Station.abandonPlan_wrongState hp h), fun hst hr => ?_⟩⟩
  intro lost
  have hchecks := Station.abandonPlan_of_ended hp hst hr
  refine ⟨fun hlost => ?_, fun hlost hl => ?_, fun hlost hl hfull => ?_, fun hlost hl hroom => ?_⟩
  · refine State.run_abandonPlan ha hrole (hchecks.trans (if_pos hlost)) ⟨⟨rfl, rfl⟩, ?_, fun hl => ?_, fun hl => ?_⟩
    · exact State.keepsAtAbandon (Blocks.abandonLost_moved s.dev.shop p b) .ok
    · have hends := Blocks.abandonLost_not_live (live_eq_false hl) p
      refine ⟨congrArg Planner.plan hends, Blocks.returns_of_pieces ?_⟩
      exact congrArg (List.map id) ((congrArg Planner.pieces hends).trans (Blocks.abandonLeft_pieces s.dev.shop _ p b))
    · exact ⟨fun q hq => Blocks.abandonLost_claims hq, Blocks.returns_of_pieces (Blocks.abandonLost_queued s.dev.shop p b)⟩
  · exact State.run_cutter_refuses ha hrole
      (hchecks.trans ((if_neg hlost).trans (if_pos (by rw [live_eq_false hl]; rfl))))
  · exact State.run_cutter_refuses ha hrole
      (hchecks.trans ((if_neg hlost).trans ((if_neg (by simp [(live_iff s).mpr hl])).trans
        (if_pos ((Blocks.queueFull_iff _).mpr hfull)))))
  · have hqueued := hchecks.trans ((if_neg hlost).trans ((if_neg (by simp [(live_iff s).mpr hl])).trans
      (if_neg (fun k => Nat.not_le.mpr hroom ((Blocks.queueFull_iff _).mp k)))))
    intro offers
    have offered : ∀ (c : Blocks) (f : Frame), ((∀ x ∈ b.cost.lines, x.2.state ≠ .due) → c.line = b.line) →
        ∀ t : State, t.dev.blk.line = c.line.offer .planner f → offers f t := fun c f hc t ht =>
      ⟨by rw [State.holds, ht, Line.mem_frames_offer_iff (fun e => by cases e)]; exact .inr rfl,
        fun hdue => ht.trans (congrArg _ (hc hdue))⟩
    refine ⟨fun hs => ?_, fun hs => ?_⟩
    · rw [Blocks.abandonQueued_unstarted hl.1 hp hs] at hqueued
      refine State.run_abandonPlan ha hrole hqueued ⟨⟨rfl, rfl⟩, ?_, ?_, rfl, ?_⟩
      · exact State.keepsAtAbandon ((Blocks.abandonLeft_moved s.dev.shop (fun _ => true) p b).trans ⟨rfl⟩) .queued
      · refine Blocks.returns_of_pieces (congrArg (List.map id) ((Blocks.abandonLeft_pieces s.dev.shop _ p b).trans ?_))
        rw [List.filter_true]
      · exact offered _ _ (fun hdue => Blocks.abandonLeft_line hdue s.dev.shop (fun _ => true) p) _ rfl
    · rw [Blocks.abandonQueued_started hl.1 hp hs] at hqueued
      refine State.run_abandonPlan ha hrole hqueued ⟨⟨rfl, rfl⟩, ?_, ?_, rfl, ?_⟩
      · exact State.keepsAtAbandon ((Blocks.abandonLeft_moved s.dev.shop (fun x => !x.done) p b).trans ⟨rfl⟩) .queued
      · exact Blocks.returns_of_pieces (congrArg (List.map id) (Blocks.abandonLeft_pieces s.dev.shop _ p b))
      · exact offered _ _ (fun hdue => Blocks.abandonLeft_line hdue s.dev.shop (fun x => !x.done) p) _ rfl

end Sys2Proof.Machine

/-! What the cost unit's moves leave of its own table and of the planner's frames (R177-R179). -/

namespace Sys2Proof.Machine

/-! ## The planner's frames -/

theorem Line.held_of_mem {p : Producer} {f : Frame} {sel : Frame → Bool} {l : Line}
    (h : ({ producer := p, frame := f } : Waiter) ∈ l.frames) (hs : sel f = true) : l.held p sel = true := by
  rw [Line.mem_frames] at h
  simp only [Line.held, Line.waits, Bool.or_eq_true, List.any_eq_true]
  rcases h with ⟨e, he, hw⟩ | h | h
  · obtain ⟨hp, hf⟩ := Waiter.mk.inj hw
    exact .inl ⟨e, he, by simp [OutEntry.isOf, hp, hf, hs]⟩
  · exact .inr (.inl ⟨_, h, by simp [Waiter.isOf, hs]⟩)
  · exact .inr (.inr ⟨_, h, by simp [Waiter.isOf, hs]⟩)

/-! ## Empty slots -/

theorem Slots.get_eq_none_iff {α : Type} {k : Nat} {m : Slots α} : Slots.get k m = none ↔ ∀ p ∈ m, p.1 ≠ k := by
  refine ⟨fun h => ?_, Slots.get_none⟩
  induction m with
  | nil => exact fun _ hp => absurd hp List.not_mem_nil
  | cons a rest ih =>
    obtain ⟨j, x⟩ := a
    unfold Slots.get at h
    split at h
    · cases h
    · next hj => exact List.forall_mem_cons.mpr ⟨hj, ih h⟩

theorem Slots.get_update_none {α : Type} {k : Nat} {m : Slots α} (h : Slots.get k m = none) (test : α → Bool)
    (f : α → α) : Slots.get k (Slots.update test f m) = none := by
  rw [Slots.get_eq_none_iff] at h ⊢
  intro p hp
  obtain ⟨x, hx, rfl⟩ := List.mem_map.mp hp
  exact h x hx

/-! ## The cost unit's moves -/

/-- From the blocks `b` to the blocks `c`, the first job stands, no empty cost slot is filled, and the planner's frames stay
held. -/
structure Blocks.CostMoved (b c : Blocks) : Prop where
  first : c.cost.first = b.cost.first
  empty : ∀ slot, Slots.get slot b.cost.lines = none → Slots.get slot c.cost.lines = none
  held : ∀ f : Frame, ({ producer := .planner, frame := f } : Waiter) ∈ b.line.frames →
    ({ producer := .planner, frame := f } : Waiter) ∈ c.line.frames

namespace Blocks.CostMoved

variable {a b c : Blocks}

theorem refl (b : Blocks) : b.CostMoved b := ⟨rfl, fun _ h => h, fun _ h => h⟩

theorem trans (h : a.CostMoved b) (k : b.CostMoved c) : a.CostMoved c :=
  ⟨k.first.trans h.first, fun s x => k.empty s (h.empty s x), fun f x => k.held f (h.held f x)⟩

theorem post (h : a.CostMoved b) (n : Notice) : a.CostMoved (b.post n) := by
  rw [Blocks.post_eq]
  exact h.trans ⟨rfl, fun _ x => x, fun _ x => x⟩

theorem onCost (h : a.CostMoved b) {f : CostUnit → CostUnit} (hfirst : (f b.cost).first = b.cost.first)
    (hempty : ∀ slot, Slots.get slot a.cost.lines = none → Slots.get slot (f b.cost).lines = none) :
    a.CostMoved (b.onCost f) :=
  ⟨hfirst.trans h.first, hempty, h.held⟩

/-- Moves of the reports held alone. -/
theorem onReports (h : a.CostMoved b) (f : CostUnit → List Report) :
    a.CostMoved (b.onCost (fun c => { c with reports := f c })) :=
  h.onCost rfl h.empty

theorem offer (h : a.CostMoved b) (f : Frame) : a.CostMoved (b.offer .cost f) := by
  unfold Blocks.offer
  split
  · exact h.trans ⟨rfl, fun _ x => x, fun _ x => (Line.mem_frames_offer_iff (fun e => by cases e)).mpr (.inl x)⟩
  · exact h

theorem withdraw (h : a.CostMoved b) (sel : Frame → Bool) : a.CostMoved (b.withdraw .cost sel) :=
  h.trans ⟨rfl, fun _ x => x, fun _ x => (Line.mem_frames_withdraw_iff (fun e => by cases e) rfl).mpr x⟩

/-- A run of moves. -/
theorem foldl {β : Type} {f : Blocks → β → Blocks} (l : List β)
    (hf : ∀ (b : Blocks), ∀ x ∈ l, a.CostMoved b → a.CostMoved (f b x)) :
    ∀ {b : Blocks}, a.CostMoved b → a.CostMoved (l.foldl f b) := by
  induction l with
  | nil => exact fun h => h
  | cons x rest ih =>
    exact fun h => ih (fun b y hy => hf b y (List.mem_cons_of_mem x hy)) (hf _ x List.mem_cons_self h)

/-- A report is made of a line that stands. -/
theorem reportLine (h : a.CostMoved b) {slot : Nat} {x : CostLine} (hx : (slot, x) ∈ a.cost.lines) :
    a.CostMoved (b.reportLine slot x) := by
  refine CostMoved.offer (h.onCost rfl (fun k hk => ?_)) _
  dsimp only
  rw [Slots.get_set_other _ _ (fun e => Slots.get_eq_none_iff.mp hk _ hx e.symm)]
  exact h.empty k hk

theorem reportChecks_self (sh : Shop) (b : Blocks) : b.CostMoved (b.reportChecks sh) := by
  unfold Blocks.reportChecks
  split
  · refine foldl _ (fun c p hp k => ?_) (refl b)
    split
    · exact k.reportLine hp
    · exact k
  · exact refl b

theorem reportChecks (h : a.CostMoved b) (sh : Shop) : a.CostMoved (b.reportChecks sh) :=
  h.trans (reportChecks_self sh b)

theorem withdrawZero (h : a.CostMoved b) (job : Nat) : a.CostMoved (b.withdrawZero job) := by
  have hw := h.withdraw (isZeroReport job)
  unfold Blocks.withdrawZero
  dsimp only
  repeat' split
  · exact hw.onReports _
  · exact hw
  · exact h

/-- The cost unit's part in a change frame (R169, R170, R177-R179). -/
theorem costAfter (h : a.CostMoved b) (before : Replica) (sh : Shop) : a.CostMoved (b.costAfter before sh) := by
  have hdue : a.CostMoved (b.onCost (CostUnit.dueFor (leftBetween before sh.rep))) :=
    h.onCost rfl (fun slot hs => by
      unfold CostUnit.dueFor
      dsimp only
      exact Slots.get_update_none (h.empty slot hs) _ _)
  have hdrop : a.CostMoved ((b.onCost (CostUnit.dueFor (leftBetween before sh.rep))).dropZeros before sh.rep) := by
    refine foldl _ (fun c job _ k => ?_) hdue
    split
    · exact k.withdrawZero job
    · exact k
  unfold Blocks.costAfter Blocks.postTallies
  dsimp only
  split
  · exact foldl _ (fun c j _ k => k.post _) (hdrop.reportChecks sh)
  · exact hdrop.reportChecks sh

end Blocks.CostMoved

end Sys2Proof.Machine

/-! The planner's own frames off the line (R28, log 2): what is told before their outcome, and what after it. -/

namespace Sys2Proof.Machine

/-! ## The changes that the planner's frames carry -/

/-- A change of the slab of a plan: CLAIM, RELEASE, RECLAIM and CONSUME. -/
inductive Change.OfPlanner (i : SlabId) : Change → Prop
  | claim : Change.OfPlanner i (.claim i)
  | release : Change.OfPlanner i (.release i)
  | reclaim : Change.OfPlanner i (.reclaim i)
  | consume (abandoned : Bool) (total : Nat) (ms : List Remnant) : Change.OfPlanner i (.consume i abandoned total ms)

/-- What the planner does at the outcome of its own frame (R127, R135, R136, R139). -/
def Blocks.ownOutcome (sh : Shop) (taken : Bool) (ch : Change) (b : Blocks) : Blocks :=
  match ch with
  | .claim i => b.claimOutcome sh i taken
  | .release i => b.releaseOutcome sh i taken
  | .reclaim i => b.reclaimOutcome sh i taken
  | .consume i _ _ _ => b.consumeOutcome sh i taken
  | _ => b

/-- A judgment that is void unless a condition holds moves no record where it is void (R26). -/
theorem void_rep_of_ite {c : Prop} [Decidable c] {j : Judged} {v : VoidReason} {r : Replica} (hj : j.taken = true)
    (h : (if c then j else voidFor v r).taken = false) : (if c then j else voidFor v r).rep = r := by
  split at h
  · rw [hj] at h
    cases h
  · next hc =>
    rw [if_neg hc]
    rfl

/-- A void change moves no record (R26). -/
theorem judge_void {i : SlabId} {ch : Change} (h : ch.OfPlanner i) {c : Ctx} {x : Nat} {r : Replica}
    (hv : (judge c x ch r).taken = false) : (judge c x ch r).rep = r := by
  cases h <;>
  · dsimp only [judge, judgeClaim, judgeRelease, judgeReclaim, judgeConsume] at hv ⊢
    split at hv
    · rfl
    · exact void_rep_of_ite rfl hv

/-! ## A search that finds nothing to do -/

/-- A search over no pieces does nothing (R126). -/
theorem Blocks.search_of_no_pieces {sh : Shop} {b : Blocks} (h : b.planner.pieces = []) : b.search sh = b := by
  unfold Blocks.search
  split
  · rw [h]
    show { b with planner := { b.planner with pieces := [] } } = b
    rw [← h]
  · rfl

/-- No search of the stock news moves these blocks: there is a plan, or no piece (R125). -/
def Blocks.Quiet (b : Blocks) : Prop := b.planner.plan ≠ none ∨ b.planner.pieces = []

theorem Blocks.Quiet.search_eq {b : Blocks} (h : b.Quiet) (sh : Shop) : b.search sh = b :=
  h.elim (fun h => Blocks.search_stands (.inl h)) Blocks.search_of_no_pieces

/-! ## What is told before the outcome, and after it -/

/-- Before the outcome the line, the stream and the figures of a CONSUME are told. -/
structure Blocks.ToldOf (ch : Change) (b c : Blocks) : Prop where
  rest : c = { b with line := c.line, plant := c.plant, asking := c.asking, cost := c.cost }
  cost : (∀ i abandoned total ms, ch ≠ .consume i abandoned total ms) → c.cost = b.cost

namespace Blocks.ToldOf

variable {ch : Change} {b c : Blocks}

theorem pres (h : b.ToldOf ch c) : c.pres = b.pres := by rw [h.rest]

theorem planner (h : b.ToldOf ch c) : c.planner = b.planner := by rw [h.rest]

theorem saw (h : b.ToldOf ch c) : c.saw = b.saw := by rw [h.rest]

theorem host (h : b.ToldOf ch c) : c.host = b.host := by rw [h.rest]

theorem now (h : b.ToldOf ch c) : c.now = b.now := by rw [h.rest]

end Blocks.ToldOf

/-- After the outcome the cost unit is told alone (R177-R179). -/
structure Blocks.SettledTo (b c : Blocks) : Prop where
  planner : c.planner = b.planner
  saw : c.saw = b.saw
  cost : b.CostMoved c
  notices : b.host.notices <+: c.host.notices

theorem Blocks.SettledTo.costAfter (b : Blocks) (before : Replica) (sh : Shop) : b.SettledTo (b.costAfter before sh) where
  planner := ((Blocks.Outside.refl b).costAfter before sh).planner
  saw := ((Blocks.Outside.refl b).costAfter before sh).saw
  cost := (Blocks.CostMoved.refl b).costAfter before sh
  notices := ((Moves.refl false b).costAfter before sh).notices

/-! ## The news of a planner's own frame (R28) -/

section news

variable {i : SlabId} {a : Applied} {ch : Change}

theorem Blocks.tellAll_ofPlanner (h : ch.OfPlanner i) (hc : a.change = some ch) (grant : Nat) (sh : Shop) (b : Blocks) :
    b.tellAll a grant sh =
      ((((b.streamNews a sh).grantReport grant sh).figuresNews a).plannerNews a sh).costAfter a.before sh := by
  unfold Blocks.tellAll Blocks.sawNews Blocks.leaveNews Blocks.presenceNews Blocks.plantNews Blocks.costNews
    Blocks.hostNews Applied.reenters
  rw [hc]
  cases h <;> simp

theorem Blocks.plannerNews_own (h : ch.OfPlanner i) (hc : a.change = some ch) (ho : a.own = true) {sh : Shop} {b : Blocks}
    (hp : b.plans = true) (hq : (b.ownOutcome sh a.taken ch).Quiet) :
    b.plannerNews a sh = b.ownOutcome sh a.taken ch := by
  have hnews : (if a.out.news.isEmpty then b.ownOutcome sh a.taken ch else (b.ownOutcome sh a.taken ch).search sh) =
      b.ownOutcome sh a.taken ch := by
    rw [hq.search_eq sh, ite_self]
  unfold Blocks.plannerNews
  rw [if_pos hp, hc, ho]
  cases h <;> exact hnews

theorem Blocks.figuresNews_told (h : ch.OfPlanner i) (hc : a.change = some ch) (b : Blocks) :
    b.ToldOf ch (b.figuresNews a) := by
  unfold Blocks.figuresNews
  rw [hc]
  cases h with
  | claim | release | reclaim => exact ⟨rfl, fun _ => rfl⟩
  | consume x t ms =>
    refine ⟨?_, fun hn => absurd rfl (hn i x t ms)⟩
    dsimp only
    repeat' split
    all_goals rfl

theorem Change.OfPlanner.touchesLedger (h : ch.OfPlanner i) (s : Nat) (r : Replica) : ch.touchesLedger s r = false := by
  cases h <;> rfl

end news

/-- A GRANT that has not moved is not reported (R100). -/
theorem Blocks.grantReport_same {sh sh' : Shop} {b c : Blocks} (hst : sh'.state = sh.state)
    (hl : sh'.rep.ledger = sh.rep.ledger) (hp : c.pres = b.pres) : c.grantReport (effGrant sh b) sh' = c := by
  refine if_pos ?_
  unfold effGrant Shop.current
  rw [hst, hl, hp]

/-! ## The frame taken -/

/-- A planner's own frame off the line, judged: the outcome is told between two moves of the other blocks. -/
theorem exec_ownOutcome {k : Kind} {sender : BitVec 4} {g : Word16} {p : List Byte} {s : State} {i : SlabId} {ch : Change}
    (ht : s.takes g sender p) (ho : s.ownFrame sender k) (hrole : s.dev.blk.pres.role = .cutter) (hk : k.isChange = true)
    (hparse : parseChange k p = some ch) (hch : ch.OfPlanner i) :
    let j := judge (Ctx.whole g) sender.toNat ch s.dev.shop.rep
    let sh := s.dev.shop.moved g j.rep
    ∃ c, s.dev.blk.ToldOf ch c ∧ ((c.ownOutcome sh j.taken ch).Quiet →
      Gives (exec (k.command sender 0 g p) s) (fun t => (c.ownOutcome sh j.taken ch).SettledTo t.dev.blk)) := by
  intro j sh
  obtain ⟨hh, hcur, hg⟩ := ht
  have hsnap : k ≠ .snap := by
    rintro rfl
    cases hk
  let a : Applied := .of true (broadcast k sender g p) s.dev.shop.rep
  have hc : a.change = some ch := hparse
  have hout : a.out = j := judgeFrame_of_parse hparse _
  let b := s.dev.blk.onLine Line.frameTaken
  have happly : s.dev.takeFrame (broadcast k sender g p) =
      { shop := sh, blk := b.tellAll a (effGrant s.dev.shop b) sh } := by
    rw [Station.takeFrame_own ho hh.2.2.2, Station.takeKind_change hk]
    unfold Station.takeChange
    dsimp only
    rw [hcur]
    have hsh : sh = s.dev.shop.moved g a.out.rep := by rw [hout]
    rw [hsh]
    exact if_pos hg
  have hstream := (Blocks.QueueMoved.refl b).streamNews a sh
  have hgrant : (b.streamNews a sh).grantReport (effGrant s.dev.shop b) sh = b.streamNews a sh :=
    Blocks.grantReport_same rfl (judge_ledger_of_untouched (hch.touchesLedger _ _)) (by rw [hstream.rest])
  have hfigures := Blocks.figuresNews_told hch hc (b.streamNews a sh)
  have htold : s.dev.blk.ToldOf ch ((b.streamNews a sh).figuresNews a) :=
    ⟨by rw [hfigures.rest, hstream.rest]; rfl, fun hn => (hfigures.cost hn).trans (by rw [hstream.rest]; rfl)⟩
  have hplans : ((b.streamNews a sh).figuresNews a).plans = true :=
    (Blocks.saws_iff _).mpr ⟨by rw [htold.pres]; exact hrole, by rw [htold.pres]; exact hh.1⟩
  refine ⟨_, htold, fun hq => ?_⟩
  have htaken : a.taken = j.taken := congrArg Judged.taken hout
  have hnews := Blocks.plannerNews_own hch hc rfl hplans (sh := sh) (by rw [htaken]; exact hq)
  rw [htaken] at hnews
  refine ⟨_, (Kind.command_exec hk sender 0 g p s).trans (frameIn_takes hh hsnap), ?_⟩
  show Blocks.SettledTo _ (s.dev.takeFrame (broadcast k sender g p)).blk
  rw [happly]
  dsimp only
  rw [Blocks.tellAll_ofPlanner hch hc, hgrant, hnews]
  exact .costAfter _ _ _

end Sys2Proof.Machine

/-! What the planner does at the outcomes of its own frames (R127, R128, R135, R136, R139). -/

namespace Sys2Proof.Machine

/-! ## CLAIM (R127, R128) -/

/-- The whole slab, as an offcut. -/
def Plan.wholeSlab (q : Plan) : Offcut := { x := 0, y := 0, length := q.length, width := q.width }

/-- The plan of a slab just claimed (R127). -/
def Plan.begun (q : Plan) : Plan := { q with state := .planning, offcuts := [q.wholeSlab] }

/-- The plan that has lost its slab (R135). -/
def Plan.lost (q : Plan) : Plan := { q with state := .faulted, fault := some .slabLost, keptConsume := false }

/-- The settled placements: all, or the done ones of an abandoned plan (R135, R137). -/
theorem Plan.settlements_length (q : Plan) :
    q.settlements.length = (q.placements.filter (fun x => !q.abandoned || x.done)).length := by
  have hsnd : (q.placements.mapIdx (fun i x => (i, x))).map Prod.snd = q.placements := by
    refine List.ext_getElem (by simp) (fun n _ _ => ?_)
    simp
  unfold Plan.settlements
  rw [List.length_filterMap_eq_countP, ← List.countP_eq_length_filter]
  conv_rhs => rw [← hsnd, List.countP_map]
  refine List.countP_congr (fun a _ => ?_)
  cases q.abandoned <;> cases h : a.2.done <;> simp [h]

/-- The whole slab is the one choice. -/
theorem bestOffcut_singleton {y : Piece} {w x : Offcut} {j : Nat} (h : bestOffcut y [w] 0 none = some (j, x)) :
    j = 0 ∧ x = w := by
  have hbest := bestOffcut_best y [w]
  rw [h] at hbest
  obtain ⟨hj, _⟩ := List.getElem?_eq_some_iff.mp hbest.1
  obtain rfl : j = 0 := by simpa using hj
  exact ⟨rfl, (Option.some.inj hbest.1).symm⟩

namespace Blocks

variable {sh : Shop} {b c d : Blocks} {q : Plan} {i : SlabId}

/-! ## The plan ends (R125, R173) -/

/-- The plan has ended, and no search has followed. -/
structure PlanEnded (b c : Blocks) : Prop where
  planner : c.planner = { b.planner with plan := none, sealT := none }
  saw : c.saw = b.saw
  first : c.cost.first = none
  empty : ∀ slot, Slots.get slot b.cost.lines = none → Slots.get slot c.cost.lines = none
  notices : b.host.notices <+: c.host.notices

theorem planEnds_ended (h : b.planner.pieces = []) (sh : Shop) : b.PlanEnded (b.planEnds sh) := by
  let x : Blocks := ((b.setPlan none).setSealT none).onCost (fun c => { c with first := none })
  have houtside := (Outside.refl x).reportChecks sh
  have hmoved := CostMoved.reportChecks_self sh x
  have hends : b.planEnds sh = x.reportChecks sh := by
    unfold Blocks.planEnds Blocks.costPlanEnded
    refine search_of_no_pieces ?_
    rw [houtside.planner]
    exact h
  rw [hends]
  exact ⟨houtside.planner, houtside.saw, hmoved.first, hmoved.empty, ((Moves.refl false x).reportChecks sh).notices⟩

theorem PlanEnded.quiet (h : b.PlanEnded c) (hb : b.planner.pieces = []) : c.Quiet :=
  .inr (by rw [h.planner]; exact hb)

/-! ## CLAIM -/

theorem claimOutcome_taken (hp : b.planner.plan = some q) (hst : q.state = .claiming) (hi : q.slab = i) (sh : Shop) :
    b.claimOutcome sh i true = (b.setPlan (some q.begun)).firstPlacement sh q := by
  have hplan : b.onPlan Plan.begun = b.setPlan (some q.begun) := by
    rw [Blocks.onPlan, hp]
    rfl
  unfold Blocks.claimOutcome
  rw [← hplan, hp]
  exact if_pos ⟨hst, hi⟩

theorem claimOutcome_void (hp : b.planner.plan = some q) (hst : q.state = .claiming) (hi : q.slab = i) (sh : Shop) :
    b.claimOutcome sh i false = (b.onCost (CostUnit.release q.job)).planEnds sh := by
  unfold Blocks.claimOutcome
  rw [hp]
  exact if_pos ⟨hst, hi⟩

/-- The claimed piece is placed first, and a look follows (R127). -/
theorem firstPlacement_wanted {p : Plan} {y : Piece} {j : Nat} {x : Offcut} (hplans : b.plans = true)
    (hp : b.planner.plan = some q) (hfind : b.planner.pieces.find? (fun a => p.piece == some a.id) = some y)
    (hbest : bestOffcut y q.offcuts 0 none = some (j, x)) (sh : Shop) :
    b.firstPlacement sh p = Blocks.lookUpTo sh 7 ((b.onCost (CostUnit.reserve y.job)).placePiece y j x) := by
  have hpres := (Blocks.placePiece_placed (b := b.onCost (CostUnit.reserve y.job)) hp y j x).pres
  unfold Blocks.firstPlacement
  rw [hp]
  dsimp only
  rw [hfind]
  dsimp only
  rw [hbest]
  refine if_pos ?_
  rw [Blocks.plans, hpres]
  exact hplans

/-- With no piece to place the slab is released (R128). -/
theorem firstPlacement_none (hp : b.planner.plan = some q) (hempty : b.planner.pieces = []) (sh : Shop) (p : Plan) :
    b.firstPlacement sh p = b.offerRelease.onCost (CostUnit.release p.job) := by
  unfold Blocks.firstPlacement
  rw [hp, hempty]
  rfl

/-! ## RELEASE (R136) -/

theorem releaseOutcome_eq (hp : b.planner.plan = some q) (hr : q.releasing = true) (hi : q.slab = i) (sh : Shop)
    (taken : Bool) : b.releaseOutcome sh i taken =
      if !taken && orphanedHere sh b i then b.setPlan (some { q with keptRelease := true }) else b.planEnds sh := by
  have hplan : b.onPlan (fun q => { q with keptRelease := true }) = b.setPlan (some { q with keptRelease := true }) := by
    rw [Blocks.onPlan, hp]
    rfl
  unfold Blocks.releaseOutcome
  rw [← hplan, hp]
  exact if_pos ⟨hr, hi⟩

/-! ## SLAB_LOST (R135, R139, R162) -/

theorem reportFault_lost (hp : b.planner.plan = some q.lost) : (b.reportFault .slabLost).planner = b.planner := by
  have hmirror : { q.lost.mirror .faulted with fault := some .slabLost } = q.lost := by
    unfold Plan.mirror Plan.lost
    cases q.releasing <;> rfl
  show { b.planner with plan := b.planner.plan.map (fun p : Plan => { p.mirror .faulted with fault := some .slabLost }) } = _
  rw [hp, Option.map_some, hmirror, ← hp]

theorem sawFault_slabLost (hp : b.planner.plan = some q.lost) :
    (b.sawFault .slabLost).planner = b.planner ∧ (b.sawFault .slabLost).saw.st = .faulted ∧
      (b.sawFault .slabLost).saw.fault = some .slabLost := by
  let x : Blocks := b.feedOff.bladeOff.onSaw (fun w =>
    { w with
      holdT := none, idleSpinT := none, st := .faulted, fault := some .slabLost, resumeCut := b.saw.resumeAt.1
      resumeEntered := b.saw.resumeAt.2 })
  have hx : x.planner = b.planner := Blocks.bladeOff_planner _
  have hfault : b.sawFault .slabLost = (x.reportFault .slabLost).startDrop := rfl
  rw [hfault, Blocks.startDrop_planner, Blocks.startDrop_saw]
  exact ⟨(reportFault_lost (by rw [hx]; exact hp)).trans hx, rfl, rfl⟩

theorem sawSlabLost_told (hp : b.planner.plan = some q.lost) :
    b.sawSlabLost.planner = b.planner ∧
      (b.saw.st ≠ .idle → b.sawSlabLost.saw.st = .faulted ∧ b.sawSlabLost.saw.fault = some .slabLost) := by
  have hwork := sawFault_slabLost hp
  unfold Blocks.sawSlabLost
  cases hst : b.saw.st with
  | idle => exact ⟨rfl, fun h => absurd rfl h⟩
  | faulted => exact ⟨reportFault_lost (b := b.onSaw _) hp, fun _ => ⟨hst, rfl⟩⟩
  | loadWait | waterWait | spinup | cutting | held | indexWait | finishing => exact ⟨hwork.1, fun _ => hwork.2⟩

/-- The notice of SLAB_LOST, and what it makes of a sequencer at work. -/
structure LosesSlab (b c : Blocks) : Prop where
  notices : b.host.notices.length < 16 →
    b.host.notices ++ [.planFault .slabLost (if b.saw.st = .faulted then b.saw.resumeCut else b.saw.cur) b.saw.enc] <+:
      c.host.notices
  saw : b.saw.st ≠ .idle → c.saw.st = .faulted ∧ c.saw.fault = some .slabLost

theorem LosesSlab.planEnded (h : b.LosesSlab c) (k : c.PlanEnded d) : b.LosesSlab d :=
  ⟨fun hroom => (h.notices hroom).trans k.notices, fun hst => by rw [k.saw]; exact h.saw hst⟩

theorem planSlabLost_told (hm : b.pres.mem ≠ .inert) (hp : b.planner.plan = some q) :
    b.planSlabLost.planner = { b.planner with plan := some q.lost } ∧ b.LosesSlab b.planSlabLost := by
  have hlost : b.lostSlab.planner = { b.planner with plan := some q.lost } := by
    rw [lostSlab, Blocks.post_planner, Blocks.onPlan_planner, hp]
    rfl
  have hsaw := (SawAside.lostSlab b).saw
  obtain ⟨hplanner, hfaults⟩ := sawSlabLost_told (b := b.lostSlab) (q := q) (congrArg Planner.plan hlost)
  rw [planSlabLost_eq]
  refine ⟨hplanner.trans hlost, fun hroom => ?_, fun hst => hfaults (by rw [hsaw]; exact hst)⟩
  have hposted : b.lostSlab.host.notices = _ := post_notices (by exact hm) (by exact hroom) _
  exact hposted ▸ (Moves.refl false b.lostSlab).sawSlabLost.notices

/-! ## CONSUME (R135, R157, R176) -/

/-- The sequencer at the end of a plan that has run to its end (R157). -/
theorem sawPlanEnded_told (b : Blocks) :
    b.sawPlanEnded.planner = b.planner ∧
      (b.saw.st = .finishing → b.sawPlanEnded.saw.st = .idle ∧ b.sawPlanEnded.saw.plan = none ∧
        b.sawPlanEnded.saw.enc = b.saw.enc ∧ b.sawPlanEnded.saw.cmd = b.saw.cmd ∧
        b.sawPlanEnded.saw.dropT = if b.saw.waterWanted then some (b.now + 5000) else b.saw.dropT) := by
  unfold Blocks.sawPlanEnded
  split
  · rw [Blocks.startDrop_planner, Blocks.startDrop_saw]
    exact ⟨rfl, fun _ => ⟨rfl, rfl, rfl, rfl, rfl⟩⟩
  next hst => exact ⟨rfl, fun h => absurd h hst⟩

theorem consumeOutcome_taken (hp : b.planner.plan = some q) (hf : q.following = .consuming) (hi : q.slab = i) (sh : Shop) :
    b.consumeOutcome sh i true =
      (((((b.onCost (CostUnit.takeSettlement q.settlements)).setPlan none).post
        (.planDone q.slab q.settlements.length q.abandoned)).sawPlanEnded).planEnds sh) := by
  unfold Blocks.consumeOutcome
  rw [hp]
  exact if_pos ⟨hi, hf⟩

theorem consumeOutcome_void (hp : b.planner.plan = some q) (hf : q.following = .consuming) (hi : q.slab = i) (sh : Shop) :
    b.consumeOutcome sh i false =
      if orphanedHere sh b i then b.setPlan (some { q with keptConsume := true }) else b.planSlabLost := by
  have hplan : b.onPlan (fun q => { q with keptConsume := true }) = b.setPlan (some { q with keptConsume := true }) := by
    rw [Blocks.onPlan, hp]
    rfl
  unfold Blocks.consumeOutcome
  rw [← hplan, hp]
  exact if_pos ⟨hi, hf⟩

/-- What a taken CONSUME leaves: the plan ended, PLAN_DONE posted first, and the sequencer at rest. -/
structure Consumed (q : Plan) (b c : Blocks) : Prop where
  planner : c.planner = { b.planner with plan := none, sealT := none }
  first : c.cost.first = none
  notices : b.host.notices.length < 16 →
    b.host.notices ++ [.planDone q.slab q.settlements.length q.abandoned] <+: c.host.notices
  saw : b.saw.st = .finishing → c.saw.st = .idle ∧ c.saw.plan = none ∧ c.saw.enc = b.saw.enc ∧ c.saw.cmd = b.saw.cmd ∧
    c.saw.dropT = if b.saw.waterWanted then some (b.now + 5000) else b.saw.dropT

theorem consumeOutcome_consumed (hm : b.pres.mem ≠ .inert) (hp : b.planner.plan = some q) (hf : q.following = .consuming)
    (hi : q.slab = i) (hempty : b.planner.pieces = []) (sh : Shop) : b.Consumed q (b.consumeOutcome sh i true) := by
  let x : Blocks := (b.onCost (CostUnit.takeSettlement q.settlements)).setPlan none
  let y : Blocks := x.post (.planDone q.slab q.settlements.length q.abandoned)
  have hy : y.planner = x.planner ∧ y.saw = b.saw ∧ y.now = b.now :=
    ⟨Blocks.post_planner _ x, Blocks.post_saw _ x, ((Outside.refl x).post _).now⟩
  obtain ⟨hyp, hys, hyn⟩ := hy
  obtain ⟨hplanner, hsaw⟩ := y.sawPlanEnded_told
  rw [hys, hyn] at hsaw
  have hended := planEnds_ended (b := y.sawPlanEnded) (by rw [hplanner, hyp]; exact hempty) sh
  rw [consumeOutcome_taken hp hf hi]
  refine ⟨hended.planner.trans (by rw [hplanner, hyp]; rfl), hended.first, fun hroom => ?_, fun hst => ?_⟩
  · have hposted : y.host.notices = _ := post_notices (by exact hm) (by exact hroom) _
    exact hposted ▸ ((Moves.refl false y).sawPlanEnded.notices.trans hended.notices)
  · rw [hended.saw]
    exact hsaw hst

/-! ## RECLAIM (R139) -/

theorem reclaimOutcome_eq (hp : b.planner.plan = some q) (hst : q.state = .reclaiming) (hi : q.slab = i) (sh : Shop)
    (taken : Bool) : b.reclaimOutcome sh i taken =
      if taken || claimedHere sh b i then b.reclaimed sh q
      else if orphanedHere sh b i then b
      else if q.keptRelease then b.planSlabLost.planEnds sh
      else b.planSlabLost := by
  unfold Blocks.reclaimOutcome
  rw [hp]
  exact if_pos ⟨hst, hi⟩

theorem reclaimed_eq (hp : b.planner.plan = some q) (sh : Shop) :
    b.reclaimed sh q =
      (let x := b.setPlan (some { q with state := q.back })
       if q.keptRelease then x.offerRelease else if q.keptConsume then x.offerConsume sh else x.look sh) := by
  unfold Blocks.reclaimed
  rw [Blocks.onPlan, hp]
  rfl

end Blocks

/-! ## The record of the plan's slab -/

/-- The record of an id is in a state, with this station as its holder. -/
def Replica.heldAs (st : SlabState) (station : Nat) (i : SlabId) (r : Replica) : Prop :=
  ∃ x, r.slab? i = some x ∧ x.state = st ∧ x.holder = some station

theorem orphanedHere_iff (sh : Shop) (b : Blocks) (i : SlabId) :
    orphanedHere sh b i = true ↔ sh.rep.heldAs .orphaned b.pres.station i := by
  unfold orphanedHere Replica.heldAs
  cases sh.rep.slab? i <;> simp

theorem claimedHere_iff (sh : Shop) (b : Blocks) (i : SlabId) :
    claimedHere sh b i = true ↔ sh.rep.heldAs .claimed b.pres.station i := by
  unfold claimedHere Replica.heldAs
  cases sh.rep.slab? i <;> simp

end Sys2Proof.Machine

/-! The planner at the outcomes of its own frames (R127, R128, R135, R136, R139): O49. -/

namespace Sys2Proof.Machine

/-! ## A planner's own frame, taken or void -/

/-- The planner's own frame of the plan's slab is taken off the line after its sending (log 2). -/
structure State.OwnFrameOf (s : State) (k : Kind) (sender : BitVec 4) (g : Word16) (p : List Byte) (ch : Change)
    (i : SlabId) (q : Plan) : Prop where
  takes : s.takes g sender p
  own : s.ownFrame sender k
  role : s.dev.blk.pres.role = .cutter
  mem : s.dev.blk.pres.mem = .member
  plan : s.dev.blk.planner.plan = some q
  slab : q.slab = i
  change : k.isChange = true
  parse : parseChange k p = some ch
  ofPlanner : ch.OfPlanner i

/-- The blocks `c` at the outcome of a frame, with the shop state `sh` that its judgment has left. -/
structure State.AtOutcome (s : State) (ch : Change) (q : Plan) (taken : Bool) (sh : Shop) (c : Blocks) : Prop where
  told : s.dev.blk.ToldOf ch c
  plan : c.planner.plan = some q
  mem : c.pres.mem = .member
  plans : c.plans = true
  rep : taken = false → sh.rep = s.dev.shop.rep

section ownFrames

variable {s : State} {k : Kind} {sender : BitVec 4} {g : Word16} {p : List Byte} {ch : Change} {i : SlabId} {q : Plan}

/-- What every outcome gives holds of the frame. -/
theorem State.OwnFrameOf.gives (h : s.OwnFrameOf k sender g p ch i q) {taken : Bool}
    (htaken : (judgeFrame (Ctx.whole g) sender.toNat k p s.dev.shop.rep).taken = taken) {P : State → Prop}
    (hP : ∀ c sh, s.AtOutcome ch q taken sh c →
      (c.ownOutcome sh taken ch).Quiet ∧ ∀ t, (c.ownOutcome sh taken ch).SettledTo t.dev.blk → P t) :
    Gives (exec (k.command sender 0 g p) s) P := by
  obtain ⟨c, htold, hgives⟩ := exec_ownOutcome h.takes h.own h.role h.change h.parse h.ofPlanner
  have hpres := htold.pres
  rw [judgeFrame_of_parse h.parse] at htaken
  rw [htaken] at hgives
  have hat : s.AtOutcome ch q taken
      (s.dev.shop.moved g (judge (Ctx.whole g) sender.toNat ch s.dev.shop.rep).rep) c :=
    { told := htold
      plan := by rw [htold.planner, h.plan]
      mem := by rw [hpres, h.mem]
      plans := (Blocks.saws_iff c).mpr ⟨by rw [hpres]; exact h.role, by rw [hpres]; exact h.takes.1.1⟩
      rep := fun e => judge_void h.ofPlanner (htaken.trans e) }
  obtain ⟨hquiet, ht⟩ := hP c _ hat
  exact (hgives hquiet).mono ht

theorem Judged.taken_iff (j : Judged) : j.taken = true ↔ j.void = none := Option.isNone_iff_eq_none

theorem Judged.taken_eq_false {j : Judged} (h : ¬ j.void = none) : j.taken = false :=
  Bool.eq_false_iff.mpr (fun e => h ((Judged.taken_iff j).mp e))

namespace State.AtOutcome

variable {taken : Bool} {sh : Shop} {c d : Blocks}

theorem pieces (h : s.AtOutcome ch q taken sh c) (hs : s.dev.blk.planner.pieces = []) : c.planner.pieces = [] := by
  rw [h.told.planner, hs]

theorem inert (h : s.AtOutcome ch q taken sh c) : c.pres.mem ≠ .inert := by
  rw [h.mem]
  exact fun e => by cases e

/-- A void outcome reads the records as they stood. -/
theorem orphaned_iff (h : s.AtOutcome ch q false sh c) :
    orphanedHere sh c i = true ↔ s.dev.shop.rep.heldAs .orphaned s.dev.blk.pres.station i := by
  rw [orphanedHere_iff, h.rep rfl, h.told.pres]

theorem claimed_iff (h : s.AtOutcome ch q false sh c) :
    claimedHere sh c i = true ↔ s.dev.shop.rep.heldAs .claimed s.dev.blk.pres.station i := by
  rw [claimedHere_iff, h.rep rfl, h.told.pres]

/-- The first notice of the outcome is the first of the step. -/
theorem posts (h : s.AtOutcome ch q taken sh c) {n : Notice}
    (hd : c.host.notices.length < 16 → c.host.notices ++ [n] <+: d.host.notices) {t : State} (ht : d.SettledTo t.dev.blk) :
    s.posts t n := fun hroom => by
  rw [← h.told.host] at hroom ⊢
  exact (hd hroom).trans ht.notices

end State.AtOutcome

/-! ## What the outcomes give -/

/-- The plan has ended (R125). -/
def State.EndsPlan (t : State) : Prop :=
  t.dev.blk.planner.plan = none ∧ t.dev.blk.planner.sealT = none ∧ t.dev.blk.cost.first = none

/-- The plan is released (R128, R136). -/
def State.Releases (q : Plan) (t : State) : Prop :=
  t.dev.blk.planner.plan = some { q with releasing := true, keptRelease := false } ∧
    t.holds .planner (mkFrame .release (bytes2 q.slab.code))

/-- The plan's slab is lost (R135, R162). -/
def State.LosesSlab (s t : State) : Prop :=
  s.posts t (.planFault .slabLost (if s.dev.blk.saw.st = .faulted then s.dev.blk.saw.resumeCut else s.dev.blk.saw.cur)
    s.dev.blk.saw.enc) ∧
  (s.dev.blk.saw.st ≠ .idle → t.dev.blk.saw.st = .faulted ∧ t.dev.blk.saw.fault = some .slabLost)

namespace State.AtOutcome

variable {taken : Bool} {sh : Shop} {b c d : Blocks} {t : State}

theorem endsPlan (k : b.PlanEnded d) (ht : d.SettledTo t.dev.blk) : t.EndsPlan :=
  ⟨by rw [ht.planner, k.planner], by rw [ht.planner, k.planner], ht.cost.first.trans k.first⟩

theorem losesSlab (h : s.AtOutcome ch q taken sh c) (k : c.LosesSlab d) (ht : d.SettledTo t.dev.blk) :
    s.LosesSlab t := by
  have hsaw := h.told.saw
  refine ⟨h.posts (fun hroom => ?_) ht, fun hst => ?_⟩
  · rw [← hsaw]
    exact k.notices hroom
  · rw [ht.saw]
    exact k.saw (by rw [hsaw]; exact hst)

/-- The plan's frame stays held behind the outcome. -/
theorem releases {r : Plan} (hm : b.pres.mem = .member) (hp : b.planner.plan = some r) {f : CostUnit → CostUnit}
    (ht : (b.offerRelease.onCost f).SettledTo t.dev.blk) : t.Releases r := by
  rw [Blocks.offerRelease_eq hm hp] at ht
  exact ⟨by rw [ht.planner]; rfl, ht.cost.held _ ((Line.mem_frames_offer_iff (fun e => by cases e)).mpr (.inr rfl))⟩

end State.AtOutcome

/-! ## CLAIM -/

theorem State.OwnFrameOf.claim_placed (h : s.OwnFrameOf .claim sender g p (.claim i) i q)
    (htaken : (judgeFrame (Ctx.whole g) sender.toNat .claim p s.dev.shop.rep).taken = true)
    (hst : q.state = .claiming) {y : Piece} {j : Nat} {x : Offcut} (hnone : q.placements = [])
    (hfind : s.dev.blk.planner.pieces.find? (fun a => q.piece == some a.id) = some y)
    (hbest : bestOffcut y [q.wholeSlab] 0 none = some (j, x)) :
    Gives (exec (Kind.command .claim sender 0 g p) s) (fun t =>
      s.posts t (.piecePlaced y.id i 1 (y.rotatedIn q.wholeSlab)) ∧
      (∀ a ∈ t.dev.blk.planner.pieces, a.id ≠ y.id) ∧
      ∃ q', t.dev.blk.planner.plan = some q' ∧ (q.begun.place y 0 q.wholeSlab).placements <+: q'.placements) := by
  obtain ⟨rfl, rfl⟩ := bestOffcut_singleton hbest
  refine h.gives htaken (fun c sh hat => ?_)
  have hfindc : c.planner.pieces.find? (fun a => q.piece == some a.id) = some y := by rw [hat.told.planner, hfind]
  have hd : c.ownOutcome sh true (.claim i) =
      Blocks.lookUpTo sh 7 (((c.setPlan (some q.begun)).onCost (CostUnit.reserve y.job)).placePiece y 0 q.wholeSlab) :=
    (Blocks.claimOutcome_taken hat.plan hst h.slab sh).trans (Blocks.firstPlacement_wanted
      (b := c.setPlan (some q.begun)) hat.plans rfl hfindc hbest sh)
  obtain ⟨hids, q', hq', hplaced⟩ := Blocks.placePiece_fills (sh := sh)
    (b := (c.setPlan (some q.begun)).onCost (CostUnit.reserve y.job)) (q := q.begun) rfl y 0 q.wholeSlab 7
  rw [hd]
  refine ⟨.inl (by rw [hq']; exact Option.some_ne_none q'), fun t ht => ⟨hat.posts (fun hroom => ?_) ht, ?_, q', ?_, hplaced⟩⟩
  · have hnotice := Blocks.placePiece_posts (sh := sh) (b := (c.setPlan (some q.begun)).onCost (CostUnit.reserve y.job))
      (q := q.begun) hat.inert rfl y 0 q.wholeSlab 7 hroom
    rw [show q.begun.placements = [] from hnone, show q.begun.slab = i from h.slab] at hnotice
    exact hnotice
  · rw [ht.planner]
    exact hids
  · rw [ht.planner]
    exact hq'

theorem State.OwnFrameOf.claim_released (h : s.OwnFrameOf .claim sender g p (.claim i) i q)
    (htaken : (judgeFrame (Ctx.whole g) sender.toNat .claim p s.dev.shop.rep).taken = true)
    (hst : q.state = .claiming) (hempty : s.dev.blk.planner.pieces = []) :
    Gives (exec (Kind.command .claim sender 0 g p) s) (State.Releases q.begun) := by
  refine h.gives htaken (fun c sh hat => ?_)
  have hd : c.ownOutcome sh true (.claim i) = (c.setPlan (some q.begun)).offerRelease.onCost (CostUnit.release q.job) :=
    (Blocks.claimOutcome_taken hat.plan hst h.slab sh).trans
      (Blocks.firstPlacement_none (b := c.setPlan (some q.begun)) rfl (hat.pieces hempty) sh q)
  rw [hd]
  refine ⟨.inr ?_, fun t ht => State.AtOutcome.releases (b := c.setPlan (some q.begun)) hat.mem rfl ht⟩
  rw [Blocks.offerRelease_eq (b := c.setPlan (some q.begun)) hat.mem rfl]
  exact hat.pieces hempty

theorem State.OwnFrameOf.claim_void (h : s.OwnFrameOf .claim sender g p (.claim i) i q)
    (htaken : (judgeFrame (Ctx.whole g) sender.toNat .claim p s.dev.shop.rep).taken = false)
    (hst : q.state = .claiming) (hempty : s.dev.blk.planner.pieces = []) :
    Gives (exec (Kind.command .claim sender 0 g p) s) (fun t => t.EndsPlan ∧
      ∀ slot x, s.dev.blk.cost.liveLine q.job = some (slot, x) → x.tally.charged = false → x.openCount = 0 →
        Slots.get slot t.dev.blk.cost.lines = none) := by
  refine h.gives htaken (fun c sh hat => ?_)
  have hd : c.ownOutcome sh false (.claim i) = (c.onCost (CostUnit.release q.job)).planEnds sh :=
    Blocks.claimOutcome_void hat.plan hst h.slab sh
  have hended := Blocks.planEnds_ended (b := c.onCost (CostUnit.release q.job)) (hat.pieces hempty) sh
  rw [hd]
  refine ⟨hended.quiet (hat.pieces hempty), fun t ht => ⟨State.AtOutcome.endsPlan hended ht, fun slot x hx hc ho => ?_⟩⟩
  refine ht.cost.empty slot (hended.empty slot ?_)
  have hrel : s.dev.blk.cost.releasable q.job = some slot := by
    unfold CostUnit.releasable
    rw [hx]
    simp [hc, ho]
  show Slots.get slot (c.cost.release q.job).lines = none
  rw [hat.told.cost (fun _ _ _ _ e => by cases e), CostUnit.release, hrel]
  exact Slots.get_erase_self _ _

end ownFrames

end Sys2Proof.Machine

/-! The planner at the outcomes of its RELEASE, CONSUME and RECLAIM (R135, R136, R138, R139), and O49. -/

namespace Sys2Proof.Machine

section ownFrames

variable {s : State} {sender : BitVec 4} {g : Word16} {p : List Byte} {i : SlabId} {q : Plan}

/-! ## RELEASE -/

theorem State.OwnFrameOf.release_ends (h : s.OwnFrameOf .release sender g p (.release i) i q) (hr : q.releasing = true)
    (hdone : (judgeFrame (Ctx.whole g) sender.toNat .release p s.dev.shop.rep).taken = true ∨
      ¬ s.dev.shop.rep.heldAs .orphaned s.dev.blk.pres.station i)
    (hempty : s.dev.blk.planner.pieces = []) :
    Gives (exec (Kind.command .release sender 0 g p) s) State.EndsPlan := by
  refine h.gives rfl (fun c sh hat => ?_)
  have hends : c.ownOutcome sh (judgeFrame (Ctx.whole g) sender.toNat .release p s.dev.shop.rep).taken (.release i) =
      c.planEnds sh := by
    refine (Blocks.releaseOutcome_eq hat.plan hr h.slab sh _).trans (if_neg ?_)
    cases hv : (judgeFrame (Ctx.whole g) sender.toNat .release p s.dev.shop.rep).taken with
    | true => exact Bool.false_ne_true
    | false =>
      rw [hv] at hat hdone
      exact fun e => hdone.resolve_left Bool.false_ne_true (hat.orphaned_iff.mp e)
  have hended := Blocks.planEnds_ended (hat.pieces hempty) sh
  rw [hends]
  exact ⟨hended.quiet (hat.pieces hempty), fun t ht => State.AtOutcome.endsPlan hended ht⟩

theorem State.OwnFrameOf.release_kept (h : s.OwnFrameOf .release sender g p (.release i) i q) (hr : q.releasing = true)
    (htaken : (judgeFrame (Ctx.whole g) sender.toNat .release p s.dev.shop.rep).taken = false)
    (horphan : s.dev.shop.rep.heldAs .orphaned s.dev.blk.pres.station i) :
    Gives (exec (Kind.command .release sender 0 g p) s)
      (fun t => t.dev.blk.planner.plan = some { q with keptRelease := true }) := by
  refine h.gives htaken (fun c sh hat => ?_)
  have hkept : c.ownOutcome sh false (.release i) = c.setPlan (some { q with keptRelease := true }) :=
    (Blocks.releaseOutcome_eq hat.plan hr h.slab sh false).trans (if_pos (hat.orphaned_iff.mpr horphan))
  rw [hkept]
  exact ⟨.inl (Option.some_ne_none _), fun t ht => congrArg Planner.plan ht.planner⟩

/-! ## SLAB_LOST -/

/-- The plan faults with SLAB_LOST (R135, R139). -/
def State.FaultsPlan (q : Plan) (s t : State) : Prop := s.LosesSlab t ∧ t.dev.blk.planner.plan = some q.lost

theorem State.AtOutcome.faultsPlan {ch : Change} {taken : Bool} {sh : Shop} {c : Blocks} (h : s.AtOutcome ch q taken sh c) :
    c.planSlabLost.Quiet ∧ ∀ t : State, c.planSlabLost.SettledTo t.dev.blk → s.FaultsPlan q t := by
  obtain ⟨hplanner, hloses⟩ := Blocks.planSlabLost_told h.inert h.plan
  have hplan : c.planSlabLost.planner.plan = some q.lost := congrArg Planner.plan hplanner
  exact ⟨.inl (by rw [hplan]; exact Option.some_ne_none _),
    fun t ht => ⟨h.losesSlab hloses ht, (congrArg Planner.plan ht.planner).trans hplan⟩⟩

/-! ## CONSUME -/

section consume

variable {abandoned : Bool} {total : Nat} {rs : List Remnant}

theorem State.OwnFrameOf.consume_done (h : s.OwnFrameOf .consume sender g p (.consume i abandoned total rs) i q)
    (htaken : (judgeFrame (Ctx.whole g) sender.toNat .consume p s.dev.shop.rep).taken = true)
    (hf : q.following = .consuming) (hempty : s.dev.blk.planner.pieces = []) :
    Gives (exec (Kind.command .consume sender 0 g p) s) (fun t => t.EndsPlan ∧
      s.posts t (.planDone i (q.placements.filter (fun x => !q.abandoned || x.done)).length q.abandoned) ∧
      (s.dev.blk.saw.st = .finishing → t.dev.blk.saw.st = .idle ∧ t.dev.blk.saw.plan = none ∧
        t.dev.blk.saw.enc = s.dev.blk.saw.enc ∧ t.dev.blk.saw.cmd = s.dev.blk.saw.cmd ∧
        t.dev.blk.saw.dropT =
          if s.dev.blk.saw.waterWanted then some (s.dev.blk.now + 5000) else s.dev.blk.saw.dropT)) := by
  refine h.gives htaken (fun c sh hat => ?_)
  have hc : c.Consumed q (c.ownOutcome sh true (.consume i abandoned total rs)) :=
    Blocks.consumeOutcome_consumed hat.inert hat.plan hf h.slab (hat.pieces hempty) sh
  refine ⟨.inr (by rw [hc.planner]; exact hat.pieces hempty), fun t ht => ⟨⟨?_, ?_, ht.cost.first.trans hc.first⟩,
    hat.posts (fun hroom => ?_) ht, fun hst => ?_⟩⟩
  · rw [ht.planner, hc.planner]
  · rw [ht.planner, hc.planner]
  · have hnotice := hc.notices hroom
    rw [h.slab, q.settlements_length] at hnotice
    exact hnotice
  · rw [← hat.told.saw, ← hat.told.now, ht.saw]
    exact hc.saw (by rw [hat.told.saw]; exact hst)

theorem State.OwnFrameOf.consume_kept (h : s.OwnFrameOf .consume sender g p (.consume i abandoned total rs) i q)
    (htaken : (judgeFrame (Ctx.whole g) sender.toNat .consume p s.dev.shop.rep).taken = false)
    (hf : q.following = .consuming) (horphan : s.dev.shop.rep.heldAs .orphaned s.dev.blk.pres.station i) :
    Gives (exec (Kind.command .consume sender 0 g p) s)
      (fun t => t.dev.blk.planner.plan = some { q with keptConsume := true }) := by
  refine h.gives htaken (fun c sh hat => ?_)
  have hkept : c.ownOutcome sh false (.consume i abandoned total rs) = c.setPlan (some { q with keptConsume := true }) :=
    (Blocks.consumeOutcome_void hat.plan hf h.slab sh).trans (if_pos (hat.orphaned_iff.mpr horphan))
  rw [hkept]
  exact ⟨.inl (Option.some_ne_none _), fun t ht => congrArg Planner.plan ht.planner⟩

theorem State.OwnFrameOf.consume_lost (h : s.OwnFrameOf .consume sender g p (.consume i abandoned total rs) i q)
    (htaken : (judgeFrame (Ctx.whole g) sender.toNat .consume p s.dev.shop.rep).taken = false)
    (hf : q.following = .consuming) (horphan : ¬ s.dev.shop.rep.heldAs .orphaned s.dev.blk.pres.station i) :
    Gives (exec (Kind.command .consume sender 0 g p) s) (s.FaultsPlan q) := by
  refine h.gives htaken (fun c sh hat => ?_)
  have hlost : c.ownOutcome sh false (.consume i abandoned total rs) = c.planSlabLost :=
    (Blocks.consumeOutcome_void hat.plan hf h.slab sh).trans (if_neg (fun e => horphan (hat.orphaned_iff.mp e)))
  rw [hlost]
  exact hat.faultsPlan

end consume

/-! ## RECLAIM -/

/-- The plan back in the state that it had before it was orphaned (R139). -/
def Plan.returned (q : Plan) : Plan := { q with state := q.back }

theorem State.OwnFrameOf.reclaimed (h : s.OwnFrameOf .reclaim sender g p (.reclaim i) i q) (hst : q.state = .reclaiming)
    (hback : (judgeFrame (Ctx.whole g) sender.toNat .reclaim p s.dev.shop.rep).taken = true ∨
      s.dev.shop.rep.heldAs .claimed s.dev.blk.pres.station i) {P : State → Prop}
    (hP : ∀ (c : Blocks) (sh : Shop), c.pres.mem = .member → c.planner.plan = some q.returned →
      let d := if q.keptRelease then c.offerRelease else if q.keptConsume then c.offerConsume sh else c.look sh
      d.Quiet ∧ ∀ t : State, d.SettledTo t.dev.blk → P t) :
    Gives (exec (Kind.command .reclaim sender 0 g p) s) P := by
  refine h.gives rfl (fun c sh hat => ?_)
  have hd : c.ownOutcome sh (judgeFrame (Ctx.whole g) sender.toNat .reclaim p s.dev.shop.rep).taken (.reclaim i) =
      c.reclaimed sh q := by
    refine (Blocks.reclaimOutcome_eq hat.plan hst h.slab sh _).trans (if_pos ?_)
    cases hv : (judgeFrame (Ctx.whole g) sender.toNat .reclaim p s.dev.shop.rep).taken with
    | true => rfl
    | false =>
      rw [hv] at hat hback
      exact hat.claimed_iff.mpr (hback.resolve_left Bool.false_ne_true)
  rw [hd, Blocks.reclaimed_eq hat.plan]
  exact hP (c.setPlan (some q.returned)) sh hat.mem rfl

/-- A composed CONSUME is held, and no longer kept (R134, R139). -/
theorem Blocks.offerConsume_told {b : Blocks} (hm : b.pres.mem = .member) (hp : b.planner.plan = some q) (sh : Shop) :
    (b.offerConsume sh).planner.plan = some { q with keptConsume := false } ∧
      ∃ f, isConsume f = true ∧ ({ producer := .planner, frame := f } : Waiter) ∈ (b.offerConsume sh).line.frames := by
  refine ⟨?_, ?_⟩
  · rw [Blocks.offerConsume_planner, hp, hm]
    rfl
  · let taken := (if q.abandoned then [] else remnantOffcuts q.offcuts).foldl
      (fun acc x => Blocks.takeRemnant sh x acc) ([], b)
    have hmem : taken.2.pres.mem = .member :=
      ((Moves.takeRemnants sh _ ([], b) (Moves.refl false b)).mem rfl).trans hm
    refine ⟨mkFrame .consume (consumePayload q.slab q.abandoned q.pieceTotal taken.1), rfl, ?_⟩
    unfold Blocks.offerConsume
    rw [hp]
    dsimp only
    rw [Blocks.offer_of_offers (by rw [Blocks.onPlan_pres, hmem]; rfl)]
    exact (Line.mem_frames_offer_iff (fun e => by cases e)).mpr (.inr rfl)

theorem State.OwnFrameOf.reclaim_stands (h : s.OwnFrameOf .reclaim sender g p (.reclaim i) i q)
    (hst : q.state = .reclaiming)
    (htaken : (judgeFrame (Ctx.whole g) sender.toNat .reclaim p s.dev.shop.rep).taken = false)
    (horphan : s.dev.shop.rep.heldAs .orphaned s.dev.blk.pres.station i) :
    Gives (exec (Kind.command .reclaim sender 0 g p) s) (fun t => t.dev.blk.planner.plan = some q) := by
  refine h.gives htaken (fun c sh hat => ?_)
  have hclaimed : claimedHere sh c i = false := by
    refine Bool.eq_false_iff.mpr (fun e => ?_)
    obtain ⟨x, hx, hxst, _⟩ := hat.claimed_iff.mp e
    obtain ⟨y, hy, hyst, _⟩ := horphan
    rw [hx] at hy
    cases hy
    rw [hxst] at hyst
    cases hyst
  have hd : c.ownOutcome sh false (.reclaim i) = c :=
    (Blocks.reclaimOutcome_eq hat.plan hst h.slab sh false).trans
      ((if_neg (by rw [hclaimed]; exact Bool.false_ne_true)).trans (if_pos (hat.orphaned_iff.mpr horphan)))
  rw [hd]
  exact ⟨.inl (by rw [hat.plan]; exact Option.some_ne_none q), fun t ht => by rw [ht.planner]; exact hat.plan⟩

theorem State.OwnFrameOf.reclaim_lost (h : s.OwnFrameOf .reclaim sender g p (.reclaim i) i q) (hst : q.state = .reclaiming)
    (htaken : (judgeFrame (Ctx.whole g) sender.toNat .reclaim p s.dev.shop.rep).taken = false)
    (hclaim : ¬ s.dev.shop.rep.heldAs .claimed s.dev.blk.pres.station i)
    (horphan : ¬ s.dev.shop.rep.heldAs .orphaned s.dev.blk.pres.station i) {P : State → Prop}
    (hP : ∀ (c : Blocks) (sh : Shop), s.AtOutcome (.reclaim i) q false sh c →
      let d := if q.keptRelease then c.planSlabLost.planEnds sh else c.planSlabLost
      d.Quiet ∧ ∀ t : State, d.SettledTo t.dev.blk → P t) :
    Gives (exec (Kind.command .reclaim sender 0 g p) s) P := by
  refine h.gives htaken (fun c sh hat => ?_)
  have hd : c.ownOutcome sh false (.reclaim i) =
      if q.keptRelease then c.planSlabLost.planEnds sh else c.planSlabLost :=
    (Blocks.reclaimOutcome_eq hat.plan hst h.slab sh false).trans
      ((if_neg (fun e => hclaim (hat.claimed_iff.mp e))).trans (if_neg (fun e => horphan (hat.orphaned_iff.mp e))))
  rw [hd]
  exact hP c sh hat

end ownFrames

/-! ## O49 -/

/-- Settles O49: for each frame, what its outcome leaves (`State.OwnFrameOf.claim_placed` and those after it), the other
blocks being told before it and the cost unit alone behind it (`exec_ownOutcome`). -/
theorem plannerTakesItsOutcomes : Obligations.PlannerTakesItsOutcomes := by
  intro k sender g p i s q ht ho hrole hmem hplan hslab b r o taken here plan ends releases lost faulted slab planning empty
  have frame : ∀ ch, k.isChange = true → parseChange k p = some ch → ch.OfPlanner i →
      s.OwnFrameOf k sender g p ch i q := fun ch h1 h2 h3 => ⟨ht, ho, hrole, hmem, hplan, hslab, h1, h2, h3⟩
  have released : ∀ q', q'.slab = i → ∀ t : State, t.Releases q' → releases q' t := fun q' e t h =>
    ⟨h.1, by rw [← e]; exact h.2⟩
  have hvoid : ¬ taken → (judgeFrame (Ctx.whole g) sender.toNat k p r).taken = false := Judged.taken_eq_false
  have htaken : taken → (judgeFrame (Ctx.whole g) sender.toNat k p r).taken = true := (Judged.taken_iff _).mpr
  refine ⟨?_, ?_, ?_, ?_⟩
  · rintro rfl hparse hst
    have hf := frame _ rfl hparse .claim
    refine ⟨fun y j x h _ hnone _ hfind hbest => ?_, fun h hempty _ => ?_, fun h hempty => ?_⟩
    · rw [← Piece.rotatedIn_eq y slab]
      exact hf.claim_placed (htaken h) hst hnone hfind hbest
    · exact (hf.claim_released (htaken h) hst hempty).mono (released _ hslab)
    · exact hf.claim_void (hvoid h) hst hempty
  · rintro rfl hparse hr
    have hf := frame _ rfl hparse .release
    exact ⟨fun h hempty => hf.release_ends hr (h.imp_left htaken) hempty,
      fun h horphan => hf.release_kept hr (hvoid h) horphan⟩
  · rintro abandoned total rs rfl hparse hst
    have hf := frame _ rfl hparse (.consume abandoned total rs)
    have hfollow : q.following = .consuming := by
      rcases hst with e | ⟨e, e'⟩
      · simp [Plan.following, e]
      · simp [Plan.following, e, e']
    exact ⟨fun h hempty => hf.consume_done (htaken h) hfollow hempty,
      fun h horphan => hf.consume_kept (hvoid h) hfollow horphan,
      fun h horphan => hf.consume_lost (hvoid h) hfollow horphan⟩
  · rintro rfl hparse hst
    have hf := frame _ rfl hparse .reclaim
    intro back
    refine ⟨fun h => ?_, fun h horphan => hf.reclaim_stands hst (hvoid h) horphan, fun h hclaim horphan => ?_⟩
    · have hback := h.imp_left htaken
      refine ⟨fun hk => ?_, fun hk hc => ?_, fun hk hc hb => ?_⟩
      · refine hf.reclaimed hst hback (fun c sh hm hp => ?_)
        have hsome : c.offerRelease.planner.plan ≠ none := by
          rw [Blocks.offerRelease_eq hm hp]
          exact Option.some_ne_none _
        rw [if_pos hk]
        exact ⟨.inl hsome, fun t ht => released q.returned hslab t (State.AtOutcome.releases (f := id) hm hp ht)⟩
      · refine hf.reclaimed hst hback (fun c sh hm hp => ?_)
        obtain ⟨hplan', f, hfc, hheld⟩ := Blocks.offerConsume_told hm hp sh
        rw [if_neg (by rw [hk]; exact Bool.false_ne_true), if_pos hc]
        exact ⟨.inl (by rw [hplan']; exact Option.some_ne_none _), fun t ht =>
          ⟨(congrArg Planner.plan ht.planner).trans hplan', Line.held_of_mem (ht.cost.held f hheld) hfc⟩⟩
      · refine hf.reclaimed hst hback (fun c sh hm hp => ?_)
        rw [if_neg (by rw [hk]; exact Bool.false_ne_true), if_neg (by rw [hc]; exact Bool.false_ne_true),
          Blocks.look_stands (.inl (fun q' e => ?_))]
        · exact ⟨.inl (by rw [hp]; exact Option.some_ne_none _), fun t ht => (congrArg Planner.plan ht.planner).trans hp⟩
        · obtain rfl := Option.some.inj (hp.symm.trans e)
          exact Plan.open_eq_false (.inl hb)
    · refine ⟨fun hk hempty => ?_, fun hk => ?_⟩
      · refine hf.reclaim_lost hst (hvoid h) hclaim horphan (fun c sh hat => ?_)
        obtain ⟨hplanner, hloses⟩ := Blocks.planSlabLost_told hat.inert hat.plan
        have hpieces : c.planSlabLost.planner.pieces = [] := by
          rw [hplanner]
          exact hat.pieces hempty
        have hended := Blocks.planEnds_ended hpieces sh
        rw [if_pos hk]
        exact ⟨hended.quiet hpieces, fun t ht =>
          ⟨State.AtOutcome.endsPlan hended ht, hat.losesSlab (hloses.planEnded hended) ht⟩⟩
      · refine hf.reclaim_lost hst (hvoid h) hclaim horphan (fun c sh hat => ?_)
        rw [if_neg (by rw [hk]; exact Bool.false_ne_true)]
        exact hat.faultsPlan

end Sys2Proof.Machine
